-- ==== Sys2Proof/Word.lean ====
section
/-! DEFINITION. The bit-vector types the manual gives the part's fields, and the two link names. -/

namespace Sys2Proof

/-- One byte of a management transaction (chapter 12). -/
abbrev Byte := BitVec 8

/-- A word of local memory: 32 bits (00_scope, Conventions). -/
abbrev Word := BitVec 32

/-- A line symbol: 20 bits, bit 19 sent first (R164). -/
abbrev Symbol := BitVec 20

/-- The 16 payload bits of a symbol, also the width of the check (R164, R165). -/
abbrev Payload := BitVec 16

/-- A sequence value, 0 to 63; arithmetic on it is modulo 64 (00_scope, Conventions). -/
abbrev Seq := BitVec 6

/-- The name of a window on its link, 0 to 63 (Table 1-1). -/
abbrev Tag := BitVec 6

/-- A word offset in a window, 0 to 1,048,575 (R2). -/
abbrev Offset := BitVec 20

/-- A lane mask: lane `n` is included when bit `n` is 1 (00_scope, Conventions). -/
abbrev LaneMask := BitVec 4

/-- A word address: bits 25 to 2 of a local byte address (Table 12-7). -/
abbrev WordAddr := BitVec 24

/-- The index of a window entry, 0 to 15 (R1). -/
abbrev Index := Fin 16

/-- The two serial links; each has its own queues, state and peer (00_scope). -/
inductive LinkId
  | a
  | b
deriving DecidableEq, Repr

end Sys2Proof
end

