-- ==== Sys2Proof/Config.lean ====
section
/-! DEFINITION. The fixed capacities and identity of the part (R157, R166). The spec leaves no value
of the part to the implementation, so no constant here is without a body. -/

namespace Sys2Proof.Config

/-- Records a capture queue has room for (R20). -/
abbrev captureCapacity : Nat := 48

/-- Records an apply queue has room for (R77). -/
abbrev applyCapacity : Nat := 32

/-- Entries a pending-write table has room for (R92). -/
abbrev pendingCapacity : Nat := 64

/-- Entries the event queue has room for (R158). -/
abbrev eventCapacity : Nat := 16

/-- The largest in-flight limit a link can be given (R43, R157). -/
abbrev inFlightCapacity : Nat := 8

/-- The sequence distance at which a senior's frame builder stalls (R102). -/
abbrev stallDistance : Nat := 24

/-- The identity code PART_INFO reports (R166, Table 12-5). -/
abbrev identityCode : BitVec 16 := 0x0432

/-- The size of the local byte address space, 64 MiB (00_scope, Conventions; R3). -/
abbrev addressSpace : Nat := 67108864

/-- Timebase ticks to a millisecond (00_scope, Conventions). -/
abbrev ticksPerMs : Nat := 1000

end Sys2Proof.Config
end

