-- ==== Sys2Proof/Syntax.lean ====
section
/-! DEFINITION. The commands of the block: one constructor per row of spec/opcode_table.json.

The operands of a management request are the raw field values of Table 12-4: the owning rule of each
command says which values it refuses, so the model receives them unchecked. The operand of every other
row is what the rule of that row needs from outside the part: which link, the symbol that arrived, the
access the master presents, the answer of the memory, the bytes a transaction clocked. -/

namespace Sys2Proof

/-- A read, or a write with its data (Table 9-1). -/
inductive AccessKind
  | read
  | write (data : Word)
deriving DecidableEq, Repr

/-- An access as the master presents it on the local bus (Table 9-1, Table 12-7). -/
structure Access where
  kind : AccessKind
  addr : WordAddr
  mask : LaneMask
deriving DecidableEq, Repr

/-- How the memory ends a transaction: OK, with the read data of a read, or FAULT (R147). -/
inductive MemStatus
  | ok (data : Word)
  | fault
deriving DecidableEq, Repr

/-- The raw fields of a PART_CONFIG_SET request (Table 12-4). -/
structure PartConfigFields where
  nodeId : Byte
  holdLimit : Byte
  applyShare : Byte
  sweepShare : Byte
  mask : Byte
deriving DecidableEq, Repr

/-- The raw fields of a WINDOW_SET request after the index (Table 12-4). -/
structure WindowFields where
  base : BitVec 32
  k : Byte
  link : Byte
  direction : Byte
  tag : Byte
  policy : Byte
  options : Byte
deriving DecidableEq, Repr

/-- The raw fields of a LINK_SET request after the link (Table 12-4). -/
structure LinkFields where
  mode : Byte
  lineRate : Byte
  frameClass : Byte
  inFlightLimit : Byte
  flushTime : BitVec 16
  ackTimeout : BitVec 16
  retryLimit : Byte
  silenceLimit : Byte
  trainingTimeout : Byte
  holdMark : Byte
  peerHoldLimit : Byte
deriving DecidableEq, Repr

/-- The commands, in the order of spec/opcode_table.json. -/
inductive Instr
  /-- NOP: a NOP request is taken (R154). -/
  | nop
  /-- PART_INFO: the request is taken (R157). -/
  | partInfo
  /-- PART_CONFIG_SET: the request is taken (R156). -/
  | partConfigSet (f : PartConfigFields)
  /-- PART_CONFIG_GET: the request is taken (R157). -/
  | partConfigGet
  /-- WINDOW_SET: the request is taken (R3). -/
  | windowSet (index : Byte) (f : WindowFields)
  /-- WINDOW_CLEAR: the request is taken (R7). -/
  | windowClear (index : Byte)
  /-- WINDOW_GET: the request is taken (R9). -/
  | windowGet (index : Byte)
  /-- LINK_SET: the request is taken (R119). -/
  | linkSet (link : Byte) (f : LinkFields)
  /-- LINK_ENABLE: the request is taken (R121). -/
  | linkEnable (link : Byte)
  /-- LINK_DISABLE: the request is taken (R127). -/
  | linkDisable (link : Byte) (force : Byte)
  /-- LINK_GET: the request is taken (R132). -/
  | linkGet (link : Byte)
  /-- FLUSH: the request is taken (R29). -/
  | flush (link : Byte)
  /-- SWEEP_START: the request is taken (R107). -/
  | sweepStart (index : Byte)
  /-- SWEEP_ABORT: the request is taken (R114). -/
  | sweepAbort (index : Byte)
  /-- EVENT_POP: the request is taken (R160). -/
  | eventPop
  /-- EVENT_CLEAR: the request is taken (R160). -/
  | eventClear
  /-- SOFT_RESET: the request is taken (R162). -/
  | softReset
  /-- BAD_COMMAND: a command byte that names no command is taken (R153). -/
  | badCommand (code : Byte)
  /-- TRANSACTION_BEGIN: select is asserted (R154). -/
  | transactionBegin
  /-- TRANSACTION_END: select is released after these complete bytes were clocked in (R154). -/
  | transactionEnd (clocked : List Byte)
  /-- HARDWARE_RESET: RESETN goes low, or power comes on (R17). -/
  | hardwareReset
  /-- HOST_ACCESS_ARRIVAL: the master presents an access (R135). -/
  | hostAccessArrival (acc : Access)
  /-- ARBITER_CHOICE: the arbiter makes a choice (R149). -/
  | arbiterChoice
  /-- MEMORY_COMPLETION: the memory completes the outstanding transaction (R147). -/
  | memoryCompletion (status : MemStatus)
  /-- CONTROL_RECORD_DECISION: the decision point of a control record at a link's head (R83). -/
  | controlRecordDecision (l : LinkId)
  /-- FRAME_BUILD: a link's builder makes a frame (R31). -/
  | frameBuild (l : LinkId)
  /-- SWEEP_OPEN_QUEUED: a link's sweep engine queues SWEEP_OPEN (R108). -/
  | sweepOpenQueued (l : LinkId)
  /-- SWEEP_CLOSE_QUEUED: a link's sweep engine queues SWEEP_CLOSE (R112). -/
  | sweepCloseQueued (l : LinkId)
  /-- FLUSH_TIMER_EXPIRY: a link's flush timer runs out (R27). -/
  | flushTimerExpiry (l : LinkId)
  /-- TRANSMIT_CHOICE_POINT: a symbol outside a frame ends on a link's line (R39). -/
  | transmitChoicePoint (l : LinkId)
  /-- FRAME_END: the check symbol of a link's frame completes (R44). -/
  | frameEnd (l : LinkId)
  /-- ACK_TIMER_EXPIRY: a link's ack timer runs out (R50). -/
  | ackTimerExpiry (l : LinkId)
  /-- PEER_HOLD_LIMIT_EXPIRY: a link's peer-hold-limit timer runs out (R55). -/
  | peerHoldLimitExpiry (l : LinkId)
  /-- SYMBOL_ARRIVAL: a symbol arrives at a link's receiver (R61). -/
  | symbolArrival (l : LinkId) (sym : Symbol)
  /-- SILENCE_TIMER_EXPIRY: a link's silence limit runs out (R63). -/
  | silenceTimerExpiry (l : LinkId)
  /-- TRAINING_TIMER_EXPIRY: a link's training timer runs out (R122). -/
  | trainingTimerExpiry (l : LinkId)
  /-- CAPTURE_HOLD_EXPIRY: the hold timer of the held write runs out (R141). -/
  | captureHoldExpiry
  /-- RESET_END: RESETN is released, or supply and clock are stable after power-on (R163). -/
  | resetEnd
deriving DecidableEq, Repr

end Sys2Proof
end

