-- ==== Sys2Proof/Machine/State.lean ====
section
/-! DEFINITION. The state of the part, as plain data, and its value right after hardware reset. One
structure per block of Figure 0-2; link A and link B each have one of every block a link owns. -/

namespace Sys2Proof.Machine

/-! ## Stops -/

/-- The block has no fault: the spec describes the effect of every command in every state, and a bus FAULT
is a completion status, not a stop. No command raises one, which is safe. -/
inductive Fault
deriving DecidableEq, Repr

/-- Why the model gives no meaning to a command. -/
inductive Refusal
  /-- Raised by an arm of `exec` for a command without a meaning; safe. No arm raises it. -/
  | notModelled (mnemonic : String)
deriving DecidableEq, Repr

/-! ## Window table (chapter 1) -/

/-- The direction of a window (Table 1-2). -/
inductive Direction
  | exports
  | imports
  | shared
deriving DecidableEq, Repr

/-- What a local write to an IMPORT window does (Table 1-1). -/
inductive WritePolicy
  | pass
  | drop
  | fault
deriving DecidableEq, Repr

/-- The state of an export side (section 1.6). -/
inductive ExportState
  | inStep
  | stale
  | sweeping
deriving DecidableEq, Repr

/-- The state of an import side (section 1.6). -/
inductive ImportState
  | inStep
  | stale
  | filling
deriving DecidableEq, Repr

/-- A valid window entry (Table 1-1); an option or a side is `none` where Table 1-2 says absent. -/
structure Window where
  base : Nat
  k : Nat
  link : LinkId
  direction : Direction
  tag : Tag
  policy : Option WritePolicy
  coalesce : Option Bool
  startInStep : Bool
  exportSide : Option ExportState
  importSide : Option ImportState
  notice : Bool
deriving DecidableEq, Repr

/-! ## Records and frames (chapters 2 and 3) -/

/-- A complete record (Table 2-1). -/
inductive Record
  | write (tag : Tag) (offset : Offset) (mask : LaneMask) (data : Word)
  | sweepOpen (tag : Tag)
  | sweepClose (tag : Tag)
  | stale (tag : Tag)
deriving DecidableEq, Repr

/-- One slot of a capture queue: a complete record, or a placeholder whose data is absent and whose lane
mask is 15 (R19). -/
inductive CaptureEntry
  | record (r : Record)
  | placeholder (tag : Tag) (offset : Offset)
deriving DecidableEq, Repr

/-- A frame of a retransmit list (R32, R43). Its count is the number of its items, and its check is
computed once, at the build (R165). -/
structure Frame where
  seq : Seq
  seen : Seq
  items : List Record
  check : Payload
  sent : Bool
deriving DecidableEq, Repr

/-- A timer, with the timebase ticks left. -/
inductive Timer
  | stopped
  | running (left : Nat)
  | paused (left : Nat)
deriving DecidableEq, Repr

/-! ## Link blocks -/

/-- The state of a link (Table 8-1). -/
inductive LinkState
  | disabled
  | hunting
  | training
  | up
  | draining
  | fault
deriving DecidableEq, Repr

/-- Why a link entered FAULT (Table 8-4). -/
inductive FaultReason
  | trainTimeout
  | idClash
  | lineLost
  | noProgress
  | holdExpired
  | peerRestart
deriving DecidableEq, Repr

/-- The rank of a link (R91). -/
inductive Rank
  | unknown
  | senior
  | junior
  | self
deriving DecidableEq, Repr

/-- A frame class: 8 or 16 items. -/
inductive FrameClass
  | eight
  | sixteen
deriving DecidableEq, Repr

/-- The mode of a link (Table 8-3). -/
inductive LinkMode
  | normal
  | loop
deriving DecidableEq, Repr

/-- The line rate of a link: 31.25, 62.5 or 125 Mbit/s (Table 8-3). -/
inductive LineRate
  | slow
  | medium
  | fast
deriving DecidableEq, Repr

/-- The configuration of a link (Table 8-3). Times are in the units of the table. -/
structure LinkConfig where
  mode : LinkMode
  lineRate : LineRate
  frameClass : FrameClass
  inFlightLimit : Nat
  flushTime : Nat
  ackTimeout : Nat
  retryLimit : Nat
  silenceLimit : Nat
  trainingTimeout : Nat
  holdMark : Nat
  peerHoldLimit : Nat
deriving DecidableEq, Repr

/-- The peer a link has recorded: its node id and the largest frame class it announced, recorded and
forgotten together (R118). -/
structure Peer where
  id : Byte
  acceptance : FrameClass
deriving DecidableEq, Repr

/-- Link control (Table 8-1). -/
structure LinkControl where
  state : LinkState
  faultReason : Option FaultReason
  peer : Option Peer
  effectiveClass : Option FrameClass
  rank : Rank
  trainingTimer : Timer
  peerHoldTimer : Timer
deriving DecidableEq, Repr

/-- The capture block of a link: its queue, oldest first, the flush timer and flush due (R20, R27, R28). -/
structure CaptureBlock where
  queue : List CaptureEntry
  flushTimer : Timer
  flushDue : Bool
deriving DecidableEq, Repr

/-- What a transmitter is sending. In LOOP mode `frame` is a frame in transmission inside the part, and
the line stays at rest (R56). -/
inductive Output
  | rest
  | symbol (sym : Symbol)
  | frame (f : Frame)
deriving DecidableEq, Repr

/-- The transmitter of a link (chapter 3). `idleSent` holds once an IDLE has been sent since the end of the
last frame, or since entry to UP (R39). -/
structure Transmitter where
  retransmit : List Frame
  nextSend : Seq
  oldest : Seq
  retryCount : Nat
  peerHold : Bool
  nakRequest : Bool
  ackTimer : Timer
  idleSent : Bool
  output : Output
deriving DecidableEq, Repr

/-- Whether a receiver trusts its symbol boundaries (Table 4-1). -/
inductive Alignment
  | hunt
  | aligned
deriving DecidableEq, Repr

/-- A WRITE record whose symbols are arriving, by what has arrived (R68). -/
inductive PartialWrite
  | first (tag : Tag) (mask : LaneMask) (high : BitVec 4)
  | second (tag : Tag) (mask : LaneMask) (offset : Offset)
  | third (tag : Tag) (mask : LaneMask) (offset : Offset) (dataHigh : Payload)
deriving DecidableEq, Repr

/-- A frame under assembly (Table 4-1). -/
structure Assembly where
  seq : Seq
  seen : Seq
  count : Nat
  records : List Record
  part : Option PartialWrite
  check : Payload
deriving DecidableEq, Repr

/-- The receiver of a link (Table 4-1). -/
structure Receiver where
  alignment : Alignment
  huntRun : Nat
  malformedRun : Nat
  silenceTimer : Timer
  assembly : Option Assembly
  receiveExpected : Seq
  nakSent : Bool
deriving DecidableEq, Repr

/-- A record of an apply queue, with the seen value of its frame until that is discarded (R97, R88), and
whether the drain point of the held host access rests on it (R85). -/
structure ApplyEntry where
  record : Record
  seen : Option Seq
  drainPoint : Bool
deriving DecidableEq, Repr

/-- Whether the head of an apply queue is outstanding at the memory port, and the window its write was
decided against, until that window is cleared (R77, R82, R8). -/
inductive ApplyWrite
  | none
  | forWindow (i : Index)
  | windowCleared
deriving DecidableEq, Repr

/-- The apply queue of a link, oldest first (chapter 5). -/
structure ApplyBlock where
  queue : List ApplyEntry
  holdFlag : Bool
  outstanding : ApplyWrite
deriving DecidableEq, Repr

/-- An entry of a pending-write table (R92). -/
structure PendingWrite where
  tag : Tag
  offset : Offset
  frame : Option Seq
deriving DecidableEq, Repr

/-- The conflict unit of a link (chapter 6). -/
structure ConflictUnit where
  table : List PendingWrite
  horizon : Seq
deriving DecidableEq, Repr

/-- The phase of an active sweep (Table 7-1); IDLE is the absence of an active sweep. -/
inductive SweepPhase
  | opening
  | reading
  | closing
deriving DecidableEq, Repr

/-- The sweep a sweep engine is active for (Table 7-1). -/
structure ActiveSweep where
  phase : SweepPhase
  window : Index
  next : Offset
deriving DecidableEq, Repr

/-- Whether a sweep read of an engine is at the memory port (Table 7-1). -/
inductive ReadOutstanding
  | none
  | current
  | orphan
deriving DecidableEq, Repr

/-- The sweep engine of a link (Table 7-1). -/
structure SweepEngine where
  active : Option ActiveSweep
  read : ReadOutstanding
deriving DecidableEq, Repr

/-- The patience counts of a link's two claimants (R150). -/
structure Patience where
  apply : Nat
  sweep : Nat
deriving DecidableEq, Repr

/-- Everything a link owns. -/
structure Link where
  config : LinkConfig
  control : LinkControl
  capture : CaptureBlock
  tx : Transmitter
  rx : Receiver
  apply : ApplyBlock
  conflict : ConflictUnit
  sweep : SweepEngine
  patience : Patience
deriving DecidableEq, Repr

/-! ## Host port (chapter 9) and memory port (chapter 10) -/

/-- The host-port state (R134). -/
inductive HostPhase
  | idle
  | waitDrain
  | waitRoom
  | claiming
  | inMemory
deriving DecidableEq, Repr

/-- The answer of the lookup at arrival (R10). `clearedWindow` keeps the classification of an access whose
window has been cleared while it was IN_MEMORY (R8). -/
inductive Classification
  | noWindow
  | window (i : Index) (offset : Offset)
  | clearedWindow (i : Index) (offset : Offset)
deriving DecidableEq, Repr

/-- How an access will reach its end (Table 9-1). -/
inductive Handling
  | plain
  | capturing
  | dropped
  | refused
deriving DecidableEq, Repr

/-- What the master sees when an access ends (R134, R143). -/
structure Completion where
  fault : Bool
  data : Option Word
deriving DecidableEq, Repr

/-- The host port (Table 9-1), with the mark of R142 and the last completion given to the master. The drain
point of the table is the mark on the apply-queue entry it rests on. -/
structure HostPort where
  phase : HostPhase
  access : Option Access
  classification : Option Classification
  handling : Option Handling
  captured : Bool
  holdTimer : Timer
  completion : Option Completion
deriving DecidableEq, Repr

/-- The owner of the outstanding transaction (R147); `nobody` after a hardware reset (R152). -/
inductive Owner
  | host
  | apply (l : LinkId)
  | sweep (l : LinkId)
  | nobody
deriving DecidableEq, Repr

/-- The outstanding transaction of a busy memory port (R147). -/
structure PortTransaction where
  owner : Owner
  kind : AccessKind
  addr : WordAddr
  mask : LaneMask
deriving DecidableEq, Repr

/-! ## Management port and events (chapter 11) -/

/-- The part configuration (Table 11-3). -/
structure PartConfig where
  nodeId : Byte
  holdLimit : Nat
  applyShare : Nat
  sweepShare : Nat
  mask : Byte
deriving DecidableEq, Repr

/-- A side of a window, as an event names it (Table 12-6). -/
inductive Side
  | exportSide
  | importSide
deriving DecidableEq, Repr

/-- The causes of events (Table 12-6). -/
inductive Cause
  | captureTimeout
  | memoryFault
  | linkDraining
  | linkDown
  | peerNotice
  | applyFault
  | command
  | windowCleared
  | linkLeftUp
  | unknownTag
  | offsetRange
deriving DecidableEq, Repr

/-- An event with the fields its kind carries (Table 11-4). -/
inductive Event
  | linkUp (l : LinkId) (peer : Byte) (rank : Rank)
  | linkFault (l : LinkId) (reason : FaultReason)
  | linkDisabled (l : LinkId)
  | windowStale (i : Index) (side : Side) (cause : Cause)
  | windowInStep (i : Index) (side : Side)
  | sweepAborted (i : Index) (cause : Cause)
  | recordDiscarded (l : LinkId) (tag : Tag) (cause : Cause) (repeats : Nat)
deriving DecidableEq, Repr

/-- A refusal reason of a response (Table 11-1). -/
inductive Reason
  | short
  | badCommand
  | badIndex
  | badField
  | overlap
  | tagInUse
  | notOff
  | linkNotDisabled
  | noNodeId
  | wrongState
  | busy
deriving DecidableEq, Repr

/-- The status of a response: OK, or REFUSED with a reason (R155). -/
inductive Status
  | ok
  | refused (r : Reason)
deriving DecidableEq, Repr

/-- A response, with its data as the bytes of Table 12-5 (R154). -/
structure Response where
  code : Byte
  status : Status
  data : List Byte
deriving DecidableEq, Repr

/-- The transaction on the management port (R153, R154, R163): none selected; one that is ignored in full
because it was selected during hardware reset; or one with the content it shifts out and whether its
request has been taken. -/
inductive SpiTransaction
  | idle
  | ignored
  | active (shiftOut : Option Response) (taken : Bool)
deriving DecidableEq, Repr

/-! ## The machine -/

/-- The state of the part. `pending` is the queue of waiting commands, the next one first. `inReset` holds
while hardware reset lasts; `intn` holds while INTN is driven low. -/
structure State where
  pending : List Instr
  inReset : Bool
  config : PartConfig
  windows : Vector (Option Window) 16
  a : Link
  b : Link
  host : HostPort
  port : Option PortTransaction
  applyPointer : LinkId
  sweepPointer : LinkId
  events : List Event
  overflow : Bool
  intn : Bool
  response : Option Response
  spi : SpiTransaction
deriving DecidableEq, Repr

/-! ## Reset values -/

/-- The part configuration after hardware reset (Table 11-3). -/
def PartConfig.reset : PartConfig :=
  { nodeId := 0, holdLimit := 25, applyShare := 4, sweepShare := 16, mask := 0 }

/-- The link configuration after hardware reset (Table 8-3). -/
def LinkConfig.reset : LinkConfig :=
  { mode := .normal, lineRate := .fast, frameClass := .sixteen, inFlightLimit := 8, flushTime := 40,
    ackTimeout := 400, retryLimit := 6, silenceLimit := 20, trainingTimeout := 100, holdMark := 16,
    peerHoldLimit := 50 }

/-- Link control after a reset (Table 8-1). -/
def LinkControl.reset : LinkControl :=
  { state := .disabled, faultReason := none, peer := none, effectiveClass := none, rank := .unknown,
    trainingTimer := .stopped, peerHoldTimer := .stopped }

/-- The capture block after a reset (R37). -/
def CaptureBlock.reset : CaptureBlock :=
  { queue := [], flushTimer := .stopped, flushDue := false }

/-- The transmitter after a reset (R58). -/
def Transmitter.reset : Transmitter :=
  { retransmit := [], nextSend := 0, oldest := 0, retryCount := 0, peerHold := false, nakRequest := false,
    ackTimer := .stopped, idleSent := false, output := .rest }

/-- The receiver after a reset (Table 4-1). -/
def Receiver.reset : Receiver :=
  { alignment := .hunt, huntRun := 0, malformedRun := 0, silenceTimer := .stopped, assembly := none,
    receiveExpected := 0, nakSent := false }

/-- The apply queue after a reset (R89, R90). -/
def ApplyBlock.reset : ApplyBlock :=
  { queue := [], holdFlag := false, outstanding := .none }

/-- The conflict unit after a reset (R105). -/
def ConflictUnit.reset : ConflictUnit :=
  { table := [], horizon := 0 }

/-- The sweep engine after a reset (R117). -/
def SweepEngine.reset : SweepEngine :=
  { active := none, read := .none }

/-- A link with this configuration and every other item at its value after a reset. -/
def Link.reset (cfg : LinkConfig) : Link :=
  { config := cfg, control := .reset, capture := .reset, tx := .reset, rx := .reset, apply := .reset,
    conflict := .reset, sweep := .reset, patience := { apply := 0, sweep := 0 } }

/-- The host port after hardware reset (R146). -/
def HostPort.reset : HostPort :=
  { phase := .idle, access := none, classification := none, handling := none, captured := false,
    holdTimer := .stopped, completion := none }

/-- The machine right after hardware reset has ended, with no transaction at either port. -/
def State.reset : State :=
  { pending := [], inReset := false, config := .reset, windows := Vector.replicate 16 none,
    a := .reset .reset, b := .reset .reset, host := .reset, port := none, applyPointer := .a,
    sweepPointer := .a, events := [], overflow := false, intn := false, response := none, spi := .idle }

end Sys2Proof.Machine
end

