-- ==== Sys2Proof/Machine/Ops.lean ====
section
/-! DEFINITION. The operations over the state that every block shares: links, window entries, timers,
sequence arithmetic, lanes, the event queue and stale notices. -/

namespace Sys2Proof.Machine

/-! ## Links -/

/-- The other link. -/
def otherLink : LinkId → LinkId
  | .a => .b
  | .b => .a

/-- The blocks of a link. -/
def State.link (s : State) : LinkId → Link
  | .a => s.a
  | .b => s.b

/-- Change the blocks of one link. -/
def State.modLink (s : State) (l : LinkId) (f : Link → Link) : State :=
  match l with
  | .a => { s with a := f s.a }
  | .b => { s with b := f s.b }

/-- The state of a link. -/
def State.linkState (s : State) (l : LinkId) : LinkState := (s.link l).control.state

/-- Is the link HUNTING, TRAINING, UP or DRAINING, that is, neither DISABLED nor in FAULT? -/
def LinkState.running : LinkState → Bool
  | .hunting | .training | .up | .draining => true
  | .disabled | .fault => false

/-- Is the link UP or DRAINING, the states in which frames are built and sent (R30, R38)? -/
def LinkState.carrying : LinkState → Bool
  | .up | .draining => true
  | .disabled | .hunting | .training | .fault => false

/-- Is the link HUNTING, TRAINING or UP, the states in which a notice can be owed (R14) and an arriving
write becomes capturing (R137)? -/
def LinkState.capturing : LinkState → Bool
  | .hunting | .training | .up => true
  | .disabled | .draining | .fault => false

/-- The number of items of a frame class. -/
def FrameClass.items : FrameClass → Nat
  | .eight => 8
  | .sixteen => 16

/-! ## Window entries -/

/-- Every window index, in increasing order. -/
def allIndices : List Index := [0, 1, 2, 3, 4, 5, 6, 7, 8, 9, 10, 11, 12, 13, 14, 15]

/-- An entry of the window table; `none` is OFF (R1). -/
def State.window (s : State) (i : Index) : Option Window := s.windows[i]

/-- Replace an entry of the window table. -/
def State.setWindow (s : State) (i : Index) (e : Option Window) : State :=
  { s with windows := s.windows.set i e }

/-- Change a valid entry; an OFF entry stays OFF. -/
def State.modWindow (s : State) (i : Index) (f : Window → Window) : State :=
  s.setWindow i ((s.window i).map f)

/-- Change every valid entry. -/
def State.modWindows (s : State) (f : Window → Window) : State :=
  allIndices.foldl (fun s i => s.modWindow i f) s

/-- The size of a window in bytes (Table 1-1). -/
def Window.size (w : Window) : Nat := 256 * 2 ^ w.k

/-- The number of words of a window (R2). -/
def Window.words (w : Window) : Nat := w.size / 4

/-- Does the window's region hold the word at this word address (R10)? -/
def Window.holds (w : Window) (addr : WordAddr) : Bool :=
  decide (w.base ≤ 4 * addr.toNat) && decide (4 * addr.toNat < w.base + w.size)

/-- The word offset of a word address in a window (R2). -/
def Window.offsetOf (w : Window) (addr : WordAddr) : Offset :=
  BitVec.ofNat 20 ((4 * addr.toNat - w.base) / 4)

/-- The word address of a word offset: base + 4 × offset (R81, R110). -/
def Window.addrOf (w : Window) (o : Offset) : WordAddr :=
  BitVec.ofNat 24 ((w.base + 4 * o.toNat) / 4)

/-- Do two windows share at least one byte (R4)? -/
def Window.overlaps (v w : Window) : Bool :=
  decide (v.base < w.base + w.size) && decide (w.base < v.base + v.size)

/-- Is the window SHARED? -/
def Window.isShared (w : Window) : Bool := decide (w.direction = .shared)

/-- The valid entry whose region holds a word address (R10). -/
def State.windowAt (s : State) (addr : WordAddr) : Option Index :=
  allIndices.find? fun i => (s.window i).any (·.holds addr)

/-- The valid entry on a link that imports and carries a tag (R11). -/
def State.importOf (s : State) (l : LinkId) (t : Tag) : Option Index :=
  allIndices.find? fun i =>
    (s.window i).any fun w => decide (w.link = l) && decide (w.tag = t) && w.importSide.isSome

/-- The link of a window, if the entry is valid. -/
def State.linkOfWindow (s : State) (i : Index) : Option LinkId := (s.window i).map (·.link)

/-! ## Sequence arithmetic -/

/-- Sequence value `a` is before `b`: (b − a) mod 64 lies in 1 to 32 (00_scope, Conventions). -/
def before (a b : Seq) : Bool := decide (1 ≤ (b - a).toNat) && decide ((b - a).toNat ≤ 32)

/-! ## Lanes -/

/-- The data bits of the lanes in a mask: lane `n` is data bits 8n+7 to 8n (R165). -/
def laneBits (m : LaneMask) : Word :=
  (if m.getLsbD 0 then 0x000000FF else 0) ||| (if m.getLsbD 1 then 0x0000FF00 else 0) |||
  (if m.getLsbD 2 then 0x00FF0000 else 0) ||| (if m.getLsbD 3 then 0xFF000000 else 0)

/-- Replace the bytes of the lanes in a mask, and keep the others (R24). -/
def mergeLanes (m : LaneMask) (new old : Word) : Word :=
  (new &&& laneBits m) ||| (old &&& ~~~ laneBits m)

/-! ## Timers -/

/-- A timer that stops counting and keeps its time left, if it was running. -/
def Timer.pause : Timer → Timer
  | .running n => .paused n
  | t => t

/-- A paused timer that goes on with its time left. -/
def Timer.resume : Timer → Timer
  | .paused n => .running n
  | t => t

/-- Is the timer running? -/
def Timer.isRunning : Timer → Bool
  | .running _ => true
  | _ => false

/-- Has the timer run out: it is running and has no tick left? An expiry that waits while its timer is stopped,
paused or started again does not happen (R50, log entry 3). -/
def Timer.hasRunOut : Timer → Bool
  | .running 0 => true
  | _ => false

/-- A timer one timebase tick later: a running timer counts down. -/
def Timer.tick : Timer → Timer
  | .running (n + 1) => .running n
  | t => t

/-- Does the timer run out at the next tick? A timer resumed with no time left does too. -/
def Timer.runsOut : Timer → Bool
  | .running n => decide (n ≤ 1)
  | _ => false

/-! ## Events -/

/-- Is `new` a RECORD_DISCARDED with the link, tag and cause of `last` (R159)? -/
def Event.mergesInto (new last : Event) : Bool :=
  match new, last with
  | .recordDiscarded l t c _, .recordDiscarded l' t' c' _ => decide (l = l') && decide (t = t') && decide (c = c')
  | _, _ => false

/-- An entry after a merge: a repeat count at 255 stays there (R159). -/
def Event.merged : Event → Event
  | .recordDiscarded l t c n => .recordDiscarded l t c (min (n + 1) 255)
  | e => e

/-- Offer an event to the event queue: it merges with the newest entry, enters, or is lost with the
overflow flag set (R158, R159). -/
def State.raise (s : State) (e : Event) : State :=
  if s.events.getLast?.any e.mergesInto then
    { s with events := s.events.dropLast ++ (s.events.getLast?.map Event.merged).toList }
  else if s.events.length < Config.eventCapacity then { s with events := s.events ++ [e] }
  else { s with overflow := true }

/-! ## Stale notices -/

/-- Set the flush-due flag of a link (R28). -/
def State.setFlushDue (s : State) (l : LinkId) : State :=
  s.modLink l fun k => { k with capture := { k.capture with flushDue := true } }

/-- Set the stale-notice flag of a window with an export side; when it goes from clear to set, flush due of
its link follows (R14, R28). -/
def State.setNotice (s : State) (i : Index) : State :=
  match s.window i with
  | some w =>
    if w.exportSide.isSome && !w.notice then
      (s.modWindow i fun w => { w with notice := true }).setFlushDue w.link
    else s
  | none => s

/-- Does a valid window of the link owe a notice? -/
def State.noticeOwed (s : State) (l : LinkId) : Bool :=
  allIndices.any fun i => (s.window i).any fun w => decide (w.link = l) && w.notice

/-! ## Export and import sides -/

/-- The window with each side it has made STALE, and its notice cleared (R15, R16). -/
def Window.allStale (w : Window) : Window :=
  { w with exportSide := w.exportSide.map fun _ => .stale, importSide := w.importSide.map fun _ => .stale,
           notice := false }

/-- Give the export side of a window a state. -/
def Window.withExport (w : Window) (e : ExportState) : Window :=
  { w with exportSide := w.exportSide.map fun _ => e }

/-- Give the import side of a window a state. -/
def Window.withImport (w : Window) (m : ImportState) : Window :=
  { w with importSide := w.importSide.map fun _ => m }

/-- Abort the sweep a link's engine is active for, if it is (R113): the export side becomes STALE, a current
read becomes orphan, SWEEP_ABORTED is raised, and a notice is owed if the link is UP. For cause
WINDOW_CLEARED there is no side left to change and no notice. -/
def State.abortSweep (s : State) (l : LinkId) (cause : Cause) : State :=
  match (s.link l).sweep.active with
  | none => s
  | some sw =>
    let s := s.modLink l fun k => { k with sweep :=
      { active := none,
        read := if k.sweep.read = .current then .orphan else k.sweep.read } }
    if cause = .windowCleared then s.raise (.sweepAborted sw.window cause)
    else
      let s := s.modWindow sw.window (·.withExport .stale)
      let s := s.raise (.sweepAborted sw.window cause)
      if s.linkState l = .up then s.setNotice sw.window else s

/-- A local cause reaches the export side of a window (R12). -/
def State.localStale (s : State) (i : Index) (cause : Cause) : State :=
  match s.window i with
  | none => s
  | some w =>
    match w.exportSide with
    | some .inStep =>
      let s := s.modWindow i (·.withExport .stale)
      let s := s.raise (.windowStale i .exportSide cause)
      if (s.linkState w.link).capturing then s.setNotice i else s
    | some .sweeping => s.abortSweep w.link cause
    | some .stale => s
    | none => s

/-- The apply engine reports a cause for the import side of a window (R13). -/
def State.importStale (s : State) (i : Index) (cause : Cause) : State :=
  match s.window i with
  | none => s
  | some w =>
    match w.importSide with
    | some .inStep | some .filling =>
      (s.modWindow i (·.withImport .stale)).raise (.windowStale i .importSide cause)
    | some .stale => s
    | none => s

end Sys2Proof.Machine
end

