-- ==== Sys2Proof/Machine/Flags.lean ====
section
/-! DEFINITION. The flags and tests the blocks compute from the state: hold flag and urgency, peer hold,
capture and pending room, withdrawal of a sweep claim, builder stall, frame-build condition, INTN. -/

namespace Sys2Proof.Machine

/-! ## Records in queues -/

/-- Is the record a WRITE for this word? -/
def Record.isWriteOf (t : Tag) (o : Offset) : Record → Bool
  | .write t' o' _ _ => decide (t' = t) && decide (o' = o)
  | _ => false

/-- Is the record a WRITE? -/
def Record.isWrite : Record → Bool
  | .write _ _ _ _ => true
  | _ => false

/-- The tag of a record (Table 2-1). -/
def Record.tag : Record → Tag
  | .write t _ _ _ => t
  | .sweepOpen t => t
  | .sweepClose t => t
  | .stale t => t

/-- Is the record a sweep marker? -/
def Record.isMarker : Record → Bool
  | .sweepOpen _ | .sweepClose _ => true
  | _ => false

/-- Is the slot a complete WRITE record for this word (R24)? -/
def CaptureEntry.isCompleteWriteOf (t : Tag) (o : Offset) : CaptureEntry → Bool
  | .record r => r.isWriteOf t o
  | .placeholder _ _ => false

/-- Is the slot a WRITE record for this word, complete or a placeholder? -/
def CaptureEntry.isWriteOf (t : Tag) (o : Offset) : CaptureEntry → Bool
  | .record r => r.isWriteOf t o
  | .placeholder t' o' => decide (t' = t) && decide (o' = o)

/-- The record of a complete slot. -/
def CaptureEntry.complete? : CaptureEntry → Option Record
  | .record r => some r
  | .placeholder _ _ => none

/-- Is the slot a placeholder? -/
def CaptureEntry.isPlaceholder : CaptureEntry → Bool
  | .record _ => false
  | .placeholder _ _ => true

/-- The complete records ahead of the first placeholder (R30). -/
def availableRecords : List CaptureEntry → List Record
  | .record r :: q => r :: availableRecords q
  | _ => []

/-! ## Apply-queue hold flag and urgency -/

/-- The hold flag of an apply queue with this hold mark and occupancy, from its value before (R79). -/
def holdFlagAt (mark occupancy : Nat) (old : Bool) : Bool :=
  if mark ≤ occupancy then true
  else if occupancy ≤ mark / 2 then false
  else old

/-- Does the drain point rest on a record of the queue (R85)? -/
def ApplyBlock.hasDrainPoint (q : ApplyBlock) : Bool := q.queue.any (·.drainPoint)

/-- A link is urgent while its apply queue is at or above its hold mark, or a drain point rests on it
(R79, R149). -/
def Link.urgent (k : Link) : Bool :=
  decide (k.config.holdMark ≤ k.apply.queue.length) || k.apply.hasDrainPoint

/-! ## Peer hold -/

/-- The peer hold of a link. In LOOP mode the link's own apply-queue hold flag stands for it while the link
is UP or DRAINING (R53, R56). -/
def Link.peerHold (k : Link) : Bool :=
  if k.config.mode = .loop ∧ k.control.state.carrying then k.apply.holdFlag else k.tx.peerHold

/-! ## Room for a capture -/

/-- Does the link's pending-write table hold an entry for the word? -/
def ConflictUnit.hasEntry (c : ConflictUnit) (t : Tag) (o : Offset) : Bool :=
  c.table.any fun e => decide (e.tag = t) && decide (e.offset = o)

/-- Would a host write to this word of the window merge into a queued record (R24)? -/
def Link.mergesInto (k : Link) (w : Window) (o : Offset) : Bool :=
  decide (w.coalesce = some true) && k.capture.queue.any (·.isCompleteWriteOf w.tag o)

/-- Does the capture queue have a free slot (R20)? -/
def Link.hasSlot (k : Link) : Bool := decide (k.capture.queue.length < Config.captureCapacity)

/-- Pending room for a capture claim (R22). -/
def Link.pendingRoom (k : Link) (w : Window) (o : Offset) : Bool :=
  !w.isShared || decide (k.control.rank = .junior) || decide (k.control.rank = .self) ||
  k.conflict.hasEntry w.tag o || decide (k.conflict.table.length < Config.pendingCapacity)

/-- Capture room and pending room for a host write (R22). -/
def Link.roomForWrite (k : Link) (w : Window) (o : Offset) : Bool :=
  (k.mergesInto w o || k.hasSlot) && k.pendingRoom w o

/-- Capture room and pending room for a sweep read, which never merges (R22, R109). -/
def Link.roomForRead (k : Link) (w : Window) (o : Offset) : Bool :=
  k.hasSlot && k.pendingRoom w o

/-- Would the capture of a write to this window be made at a grant (R22, R23)? -/
def State.captureMade (s : State) (w : Window) : Bool :=
  (decide (w.exportSide = some .inStep) || decide (w.exportSide = some .sweeping)) &&
  (s.linkState w.link).running

/-- The window and word offset the access in progress is classified against, while that entry is valid. -/
def State.hostTarget (s : State) : Option (Index × Window × Offset) :=
  match s.host.classification with
  | some (.window i o) => (s.window i).map fun w => (i, w, o)
  | _ => none

/-- Would the capture of the write in progress be made at a grant? -/
def State.hostCaptureMade (s : State) : Bool :=
  match s.hostTarget with
  | some (_, w, _) => s.captureMade w
  | none => false

/-- Is the host claim eligible at the memory port (R22, R148)? -/
def State.hostEligible (s : State) : Bool :=
  if s.host.handling = some .capturing then
    match s.hostTarget with
    | some (_, w, o) => !s.captureMade w || (s.link w.link).roomForWrite w o
    | none => true
  else true

/-! ## Claims on the memory port -/

/-- The head WRITE an apply claim of a link is presented for (R80, R148). -/
def Link.applyClaim (k : Link) : Bool :=
  decide (k.apply.outstanding = .none) && k.apply.queue.head?.any (·.record.isWrite)

/-- The window and word offset a sweep claim of a link is presented for: the engine is READING with no read
outstanding, and for a SHARED window the apply queue holds no WRITE for the word (R109, R148). -/
def State.sweepClaim (s : State) (l : LinkId) : Option (Index × Window × Offset) :=
  match (s.link l).sweep.active with
  | some ⟨.reading, i, o⟩ =>
    match s.window i with
    | some w =>
      if (s.link l).sweep.read = .none ∧
          ¬ (w.isShared ∧ (s.link l).apply.queue.any (·.record.isWriteOf w.tag o)) then
        some (i, w, o)
      else none
    | none => none
  | _ => none

/-- Is a sweep claim presented and eligible (R22, R148)? -/
def State.sweepEligible (s : State) (l : LinkId) : Bool :=
  match s.sweepClaim l with
  | some (_, w, o) => (s.link l).roomForRead w o
  | none => false

/-! ## Frame building -/

/-- Is the frame builder of the link stalled by the peer horizon (R102)? -/
def Link.stalled (k : Link) : Bool :=
  decide (k.control.rank = .senior) && decide (Config.stallDistance ≤ (k.tx.nextSend - k.conflict.horizon).toNat)

/-- The valid windows of a link that owe a notice, in increasing index (R31). -/
def State.noticeWindows (s : State) (l : LinkId) : List Index :=
  allIndices.filter fun i => (s.window i).any fun w => decide (w.link = l) && w.notice

/-- The conditions of a frame build (R30). -/
def State.buildReady (s : State) (l : LinkId) : Bool :=
  let k := s.link l
  k.control.state.carrying && !k.peerHold && decide (k.tx.retransmit.length < k.config.inFlightLimit) &&
  !k.stalled &&
  (s.noticeOwed l || !(availableRecords k.capture.queue).isEmpty) &&
  (k.control.effectiveClass.any (fun c => decide (c.items ≤ (availableRecords k.capture.queue).length)) ||
    k.capture.flushDue || decide (k.control.state = .draining))

/-! ## INTN -/

/-- The kind code of an event (Table 12-6). -/
def Event.kindCode : Event → Nat
  | .linkUp _ _ _ => 1
  | .linkFault _ _ => 2
  | .linkDisabled _ => 3
  | .windowStale _ _ _ => 4
  | .windowInStep _ _ => 5
  | .sweepAborted _ _ => 6
  | .recordDiscarded _ _ _ _ => 7

/-- Is INTN driven low: does the queue hold an event of a kind in the mask, or is the overflow flag set
(R161)? Bit n − 1 of the mask stands for kind code n (R166). -/
def State.intnAsserted (s : State) : Bool :=
  s.events.any (fun e => s.config.mask.getLsbD (e.kindCode - 1)) || s.overflow

/-- INTN follows the queue, the overflow flag and the mask (R161). -/
def State.driveIntn (s : State) : State := { s with intn := s.intnAsserted }

end Sys2Proof.Machine
end

