-- ==== Sys2Proof/Machine/Conflict.lean ====
section
/-! DEFINITION. The conflict unit of a link: pending-write entries and the peer horizon (chapter 6). -/

namespace Sys2Proof.Machine

/-- Is the entry for this word? -/
def PendingWrite.isFor (e : PendingWrite) (t : Tag) (o : Offset) : Bool :=
  decide (e.tag = t) && decide (e.offset = o)

/-- The table after a capture of this word: the word's entry loses its frame number, or an entry without one
is made (R93). -/
def ConflictUnit.capture (c : ConflictUnit) (t : Tag) (o : Offset) : ConflictUnit :=
  if c.hasEntry t o then
    { c with table := c.table.map fun e => if e.isFor t o then { e with frame := none } else e }
  else { c with table := c.table ++ [{ tag := t, offset := o, frame := none }] }

/-- A WRITE for a word of this window is captured on a link: at UNKNOWN and SENIOR rank the conflict unit acts on
a word of a SHARED window (R93). -/
def State.noteCapture (s : State) (l : LinkId) (w : Window) (o : Offset) : State :=
  s.modLink l fun k =>
    if w.isShared ∧ (k.control.rank = .unknown ∨ k.control.rank = .senior) then
      { k with conflict := k.conflict.capture w.tag o }
    else k

/-- The table after a build of frame `seq` with these items, the capture queue then holding `queue`: the
entry of a WRITE item's word takes the frame's number unless a later record for the word is still queued
(R33, R94). -/
def ConflictUnit.build (c : ConflictUnit) (seq : Seq) (items : List Record) (queue : List CaptureEntry) :
    ConflictUnit :=
  { c with table := c.table.map fun e =>
      if items.any (·.isWriteOf e.tag e.offset) && !queue.any (·.isWriteOf e.tag e.offset) then
        { e with frame := some seq }
      else e }

/-- The table after a placeholder for this word was removed unfilled at SENIOR rank: an entry without a frame
number, and without another WRITE record queued for its word, takes the number of the most recent frame, or
is removed where that is before the horizon (R95). -/
def ConflictUnit.unfilled (c : ConflictUnit) (t : Tag) (o : Offset) (recent : Seq) (queue : List CaptureEntry) :
    ConflictUnit :=
  if queue.any (·.isWriteOf t o) then c
  else
    { c with table := c.table.filterMap fun e =>
        if e.isFor t o ∧ e.frame = none then
          if before recent c.horizon then none else some { e with frame := some recent }
        else some e }

/-- The table without the entries of a tag (R96). -/
def ConflictUnit.dropTag (c : ConflictUnit) (t : Tag) : ConflictUnit :=
  { c with table := c.table.filter fun e => !decide (e.tag = t) }

/-- Has the entry a frame number before the horizon (R100)? -/
def PendingWrite.retiredAt (horizon : Seq) (e : PendingWrite) : Bool := e.frame.any fun f => before f horizon

/-- A candidate value is offered to the horizon of a link: at SENIOR rank the horizon takes it when it lies
from the horizon up to next-send, counted forward, and entries before a changed horizon retire (R97,
R100). -/
def State.offerHorizon (s : State) (l : LinkId) (candidate : Seq) : State :=
  s.modLink l fun k =>
    let h := k.conflict.horizon
    if k.control.rank = .senior ∧ candidate ≠ h ∧ (candidate - h).toNat ≤ (k.tx.nextSend - h).toNat then
      { k with conflict :=
        { table := k.conflict.table.filter fun e => !e.retiredAt candidate, horizon := candidate } }
    else k

/-- The record at the head of the apply queue, having just become the head, offers its frame's seen value,
where it still has one (R98). -/
def State.offerHead (s : State) (l : LinkId) : State :=
  match (s.link l).apply.queue.head?.bind (·.seen) with
  | some v => s.offerHorizon l v
  | none => s

/-- The apply queue holds no undecided record: it is empty or holds only an outstanding head WRITE (R99). -/
def ApplyBlock.allDecided (q : ApplyBlock) : Bool :=
  q.queue.isEmpty || (decide (q.outstanding ≠ .none) && decide (q.queue.length = 1))

/-- An IDLE of the peer is reported to the conflict unit (R99). -/
def State.offerIdle (s : State) (l : LinkId) (ack nextSend : Seq) : State :=
  let k := s.link l
  if nextSend = k.rx.receiveExpected ∧ k.apply.allDecided then s.offerHorizon l ack else s

end Sys2Proof.Machine
end

