-- ==== Sys2Proof/Machine/Encoding.lean ====
section
/-! DEFINITION. The layouts of chapter 12: line symbols (R164), records and the check (R165), and the
response bytes of the management port (R166). -/

namespace Sys2Proof.Machine

/-! ## Line symbols -/

/-- What a symbol says, by Tables 12-1 and 12-2. -/
inductive SymbolKind
  | idle (ack nextSend : Seq) (hold : Bool)
  | frameStart (seq seen : Seq) (count : Nat)
  | data (payload : Payload)
  | nak (expected : Seq)
  | hello (id : Byte) (class16 seenYou : Bool)
  | malformed
deriving DecidableEq, Repr

/-- A symbol from its type bits and payload, the alignment bits being 1 then 0 (Table 12-1). -/
def symbolOf (type : BitVec 2) (payload : Payload) : Symbol := (0b10#2 ++ type ++ payload : BitVec 20)

/-- The IDLE symbol (Table 12-2). -/
def idleSymbol (ack nextSend : Seq) (hold : Bool) : Symbol :=
  symbolOf 0b00 (ack ++ nextSend ++ BitVec.ofBool hold ++ 0#3 : BitVec 16)

/-- The payload of a FRAME_START symbol, which carries count − 1 (Table 12-2). -/
def frameStartPayload (seq seen : Seq) (count : Nat) : Payload :=
  (seq ++ seen ++ BitVec.ofNat 4 (count - 1) : BitVec 16)

/-- The CONTROL NAK symbol (Table 12-2). -/
def nakSymbol (expected : Seq) : Symbol := symbolOf 0b11 (0b01#2 ++ expected ++ 0#8 : BitVec 16)

/-- The CONTROL HELLO symbol (Table 12-2). -/
def helloSymbol (id : Byte) (class16 seenYou : Bool) : Symbol :=
  symbolOf 0b11 (0b10#2 ++ id ++ BitVec.ofBool class16 ++ BitVec.ofBool seenYou ++ 0#4 : BitVec 16)

/-- What a received symbol says (R164). An alignment pair other than 10, and a CONTROL code 00 or 11, make
it malformed; bits Table 12-2 marks as zero are not examined. -/
def decodeSymbol (sym : Symbol) : SymbolKind :=
  let p : Payload := sym.extractLsb' 0 16
  if sym.extractLsb' 18 2 ≠ 0b10#2 then .malformed
  else
    match (sym.extractLsb' 16 2).toNat with
    | 0 => .idle (p.extractLsb' 10 6) (p.extractLsb' 4 6) (p.getLsbD 3)
    | 1 => .frameStart (p.extractLsb' 10 6) (p.extractLsb' 4 6) ((p.extractLsb' 0 4).toNat + 1)
    | 2 => .data p
    | _ =>
      match (p.extractLsb' 14 2).toNat with
      | 1 => .nak (p.extractLsb' 8 6)
      | 2 => .hello (p.extractLsb' 6 8) (p.getLsbD 5) (p.getLsbD 4)
      | _ => .malformed

/-! ## Records and the check -/

/-- The first symbol of a record: kind, tag, lane mask, upper bits of the word offset (Table 12-3). -/
def firstPayload (kind : BitVec 2) (tag : Tag) (mask : LaneMask) (high : BitVec 4) : Payload :=
  (kind ++ tag ++ mask ++ high : BitVec 16)

/-- The payloads of the symbols of a record (Table 12-3). Data bytes outside the mask are sent as 0. -/
def recordPayloads : Record → List Payload
  | .write t o m d =>
    let d := d &&& laneBits m
    [firstPayload 0b00 t m (o.extractLsb' 16 4), o.extractLsb' 0 16, d.extractLsb' 16 16, d.extractLsb' 0 16]
  | .sweepOpen t => [firstPayload 0b01 t 0 0]
  | .sweepClose t => [firstPayload 0b10 t 0 0]
  | .stale t => [firstPayload 0b11 t 0 0]

/-- One input bit enters the CRC register (R165). -/
def crcBit (reg : Payload) (bit : Bool) : Payload :=
  if reg.getLsbD 15 ^^ bit then (reg <<< 1) ^^^ 0x1021 else reg <<< 1

/-- Sixteen input bits enter the CRC register, the most significant first (R165). -/
def crcPayload (reg p : Payload) : Payload :=
  [15, 14, 13, 12, 11, 10, 9, 8, 7, 6, 5, 4, 3, 2, 1, 0].foldl (fun r i => crcBit r (p.getLsbD i)) reg

/-- The CRC register at the start of each frame (R165). -/
def crcStart : Payload := 0xFFFF

/-- The payloads of a frame ahead of its check: the FRAME_START's, then every record symbol's (R165). -/
def framePayloads (seq seen : Seq) (items : List Record) : List Payload :=
  frameStartPayload seq seen items.length :: items.flatMap recordPayloads

/-- The check of a frame (R165). -/
def frameCheck (seq seen : Seq) (items : List Record) : Payload :=
  (framePayloads seq seen items).foldl crcPayload crcStart

/-- The symbols of a frame on the line, first to last: FRAME_START, its record symbols, the check (R44,
R165). -/
def Frame.symbols (f : Frame) : List Symbol :=
  symbolOf 0b01 (frameStartPayload f.seq f.seen f.items.length) ::
    ((f.items.flatMap recordPayloads).map (symbolOf 0b10) ++ [symbolOf 0b10 f.check])

/-! ## Response bytes -/

/-- A number as one byte. -/
def byteOf (n : Nat) : Byte := BitVec.ofNat 8 n

/-- A number as two bytes, most significant first. -/
def twoBytes (n : Nat) : List Byte := [byteOf (n / 256), byteOf n]

/-- A flag as one byte: 0 clear, 1 set. Table 12-5 says so of WINDOW_GET's stale notice and EVENT_POP's overflow, and gives
no coding for the four flags of LINK_GET (flush due, peer hold, NAK-sent, hold flag), for which it is the model's choice
(log entry 26). -/
def flagByte (b : Bool) : Byte := if b then 1 else 0

/-- The byte that means absent in a one-byte field, and the fill value (R166). -/
def absentByte : Byte := 0xFF

/-- A one-byte field that may be absent. -/
def optByte {α : Type} (f : α → Byte) : Option α → Byte
  | some x => f x
  | none => absentByte

/-- Link values (R166). -/
def linkByte : LinkId → Byte
  | .a => 0
  | .b => 1

/-- Directions (R166). -/
def Direction.toByte : Direction → Byte
  | .exports => 0
  | .imports => 1
  | .shared => 2

/-- Write policies (R166). -/
def WritePolicy.toByte : WritePolicy → Byte
  | .pass => 0
  | .drop => 1
  | .fault => 2

/-- Export side states (Table 12-5). -/
def ExportState.toByte : ExportState → Byte
  | .inStep => 0
  | .stale => 1
  | .sweeping => 2

/-- Import side states (Table 12-5). -/
def ImportState.toByte : ImportState → Byte
  | .inStep => 0
  | .stale => 1
  | .filling => 2

/-- Link states (Table 12-5). -/
def LinkState.toByte : LinkState → Byte
  | .disabled => 0
  | .hunting => 1
  | .training => 2
  | .up => 3
  | .draining => 4
  | .fault => 5

/-- Fault reasons (Table 12-6). -/
def FaultReason.toByte : FaultReason → Byte
  | .trainTimeout => 1
  | .idClash => 2
  | .lineLost => 3
  | .noProgress => 4
  | .holdExpired => 5
  | .peerRestart => 6

/-- Ranks (Table 12-5). -/
def Rank.toByte : Rank → Byte
  | .unknown => 0
  | .senior => 1
  | .junior => 2
  | .self => 3

/-- Frame classes: the number 8 or 16 (R166). -/
def FrameClass.toByte (c : FrameClass) : Byte := byteOf c.items

/-- Link modes (R166). -/
def LinkMode.toByte : LinkMode → Byte
  | .normal => 0
  | .loop => 1

/-- Line rates (R166). -/
def LineRate.toByte : LineRate → Byte
  | .slow => 0
  | .medium => 1
  | .fast => 2

/-- Sides of a window (Table 12-6). -/
def Side.toByte : Side → Byte
  | .exportSide => 0
  | .importSide => 1

/-- Event causes (Table 12-6). -/
def Cause.toByte : Cause → Byte
  | .captureTimeout => 1
  | .memoryFault => 2
  | .linkDraining => 3
  | .linkDown => 4
  | .peerNotice => 5
  | .applyFault => 6
  | .command => 7
  | .windowCleared => 8
  | .linkLeftUp => 9
  | .unknownTag => 10
  | .offsetRange => 11

/-- Refusal reasons (R166). -/
def Reason.toByte : Reason → Byte
  | .short => 0x01
  | .badCommand => 0x02
  | .badIndex => 0x03
  | .badField => 0x04
  | .overlap => 0x05
  | .tagInUse => 0x06
  | .notOff => 0x07
  | .linkNotDisabled => 0x08
  | .noNodeId => 0x09
  | .wrongState => 0x0A
  | .busy => 0x0B

/-- The status byte of a response (R166). -/
def Status.toByte : Status → Byte
  | .ok => 0x00
  | .refused r => r.toByte

/-- A window index as a byte. -/
def indexByte (i : Index) : Byte := byteOf i.val

/-- The nine bytes of an event entry (Table 12-6): kind, link, window, side, tag, peer id, rank, cause or
reason, repeat count; a field the kind does not carry is 0xFF. -/
def Event.bytes : Event → List Byte
  | .linkUp l p r => [1, linkByte l, absentByte, absentByte, absentByte, p, r.toByte, absentByte, absentByte]
  | .linkFault l r =>
    [2, linkByte l, absentByte, absentByte, absentByte, absentByte, absentByte, r.toByte, absentByte]
  | .linkDisabled l =>
    [3, linkByte l, absentByte, absentByte, absentByte, absentByte, absentByte, absentByte, absentByte]
  | .windowStale i d c =>
    [4, absentByte, indexByte i, d.toByte, absentByte, absentByte, absentByte, c.toByte, absentByte]
  | .windowInStep i d =>
    [5, absentByte, indexByte i, d.toByte, absentByte, absentByte, absentByte, absentByte, absentByte]
  | .sweepAborted i c =>
    [6, absentByte, indexByte i, absentByte, absentByte, absentByte, absentByte, c.toByte, absentByte]
  | .recordDiscarded l t c n =>
    [7, linkByte l, absentByte, absentByte, t.setWidth 8, absentByte, absentByte, c.toByte, byteOf n]

/-- The nine bytes EVENT_POP gives for EMPTY (Table 12-6). -/
def emptyEventBytes : List Byte := 0 :: List.replicate 8 absentByte

/-- The data of a PART_INFO response (Table 12-5). -/
def partInfoBytes : List Byte :=
  twoBytes Config.identityCode.toNat ++
  [16, 2, byteOf Config.captureCapacity, byteOf Config.applyCapacity, byteOf Config.pendingCapacity,
   byteOf Config.eventCapacity, byteOf Config.inFlightCapacity, 64]

/-- The data of a PART_CONFIG_GET response (Table 12-5). -/
def PartConfig.bytes (c : PartConfig) : List Byte :=
  [c.nodeId, byteOf c.holdLimit, byteOf c.applyShare, byteOf c.sweepShare, c.mask]

/-- The options byte WINDOW_GET reports: bit 0 coalesce, 0 for IMPORT; bit 1 start in step (R166). -/
def Window.optionsByte (w : Window) : Byte :=
  (if w.coalesce = some true then 1 else 0) ||| (if w.startInStep then 2 else 0)

/-- The data of a WINDOW_GET response (Table 12-5); an OFF entry is valid 0 alone. -/
def windowBytes : Option Window → List Byte
  | none => [0]
  | some w =>
    [1, byteOf (w.base / 2 ^ 24), byteOf (w.base / 2 ^ 16), byteOf (w.base / 2 ^ 8), byteOf w.base, byteOf w.k,
     linkByte w.link, w.direction.toByte, w.tag.setWidth 8, optByte WritePolicy.toByte w.policy, w.optionsByte,
     optByte ExportState.toByte w.exportSide, optByte ImportState.toByte w.importSide, flagByte w.notice]

/-- The configuration fields of a LINK_GET response, as in LINK_SET (Table 12-5). -/
def LinkConfig.bytes (c : LinkConfig) : List Byte :=
  [c.mode.toByte, c.lineRate.toByte, c.frameClass.toByte, byteOf c.inFlightLimit] ++ twoBytes c.flushTime ++
  twoBytes c.ackTimeout ++
  [byteOf c.retryLimit, byteOf c.silenceLimit, byteOf c.trainingTimeout, byteOf c.holdMark,
   byteOf c.peerHoldLimit]

/-- A sequence value as a byte. -/
def seqByte (q : Seq) : Byte := q.setWidth 8

/-- Sweep phases (Table 12-5). -/
def SweepPhase.toByte : SweepPhase → Byte
  | .opening => 1
  | .reading => 2
  | .closing => 3

/-- The sweep-engine items of a LINK_GET response: phase, window, next offset in three bytes (Table 12-5). -/
def SweepEngine.bytes (e : SweepEngine) : List Byte :=
  match e.active with
  | none => [0, absentByte, absentByte, absentByte, absentByte]
  | some sw =>
    [sw.phase.toByte, indexByte sw.window, byteOf (sw.next.toNat / 2 ^ 16), byteOf (sw.next.toNat / 2 ^ 8),
     byteOf sw.next.toNat]

/-- The data of a LINK_GET response: the items of Table 8-6 in its order (Table 12-5). -/
def Link.bytes (k : Link) : List Byte :=
  [k.control.state.toByte, optByte FaultReason.toByte k.control.faultReason,
   optByte (·.id) k.control.peer, optByte (·.acceptance.toByte) k.control.peer,
   optByte FrameClass.toByte k.control.effectiveClass, k.control.rank.toByte] ++
  k.config.bytes ++
  [byteOf k.capture.queue.length, flagByte k.capture.flushDue,
   byteOf k.tx.retransmit.length, seqByte k.tx.nextSend, seqByte k.tx.oldest, byteOf k.tx.retryCount,
   flagByte k.peerHold,
   (match k.rx.alignment with
    | .hunt => 0
    | .aligned => 1), seqByte k.rx.receiveExpected, flagByte k.rx.nakSent,
   byteOf k.apply.queue.length, flagByte k.apply.holdFlag,
   byteOf k.conflict.table.length, seqByte k.conflict.horizon] ++
  k.sweep.bytes

/-- The bytes of a response: command code, status byte, data (R166). -/
def Response.bytes (r : Response) : List Byte := r.code :: r.status.toByte :: r.data

/-- Byte `n` of the data-out wire for a fixed content; NONE, and every byte past the content, reads as fill
(R154, R166). -/
def shiftedByte (content : Option Response) (n : Nat) : Byte :=
  ((content.map Response.bytes).getD []).getD n absentByte

end Sys2Proof.Machine
end

