-- ==== Sys2Proof/Machine/Capture.lean ====
section
/-! DEFINITION. The capture block and the frame builder of a link: entry of records, merge, placeholders,
frame build (chapter 2). -/

namespace Sys2Proof.Machine

/-! ## Entry, merge and placeholders -/

/-- A record enters at the tail of the capture queue; into an empty queue it starts the flush timer (R20,
R27). -/
def Link.enqueue (k : Link) (e : CaptureEntry) : Link :=
  { k with capture := { k.capture with
      queue := k.capture.queue ++ [e]
      flushTimer := if k.capture.queue.isEmpty then .running k.config.flushTime else k.capture.flushTimer } }

/-- The slot after a host write merged into it (R24). -/
def CaptureEntry.merge (m : LaneMask) (d : Word) : CaptureEntry → CaptureEntry
  | .record (.write t o m' d') => .record (.write t o (m' ||| m) (mergeLanes m d d'))
  | e => e

/-- The queue after a host write merged into the newest complete WRITE record for its word (R24). -/
def mergeNewest (t : Tag) (o : Offset) (m : LaneMask) (d : Word) : List CaptureEntry → List CaptureEntry
  | [] => []
  | e :: q =>
    if q.any (·.isCompleteWriteOf t o) then e :: mergeNewest t o m d q
    else if e.isCompleteWriteOf t o then e.merge m d :: q
    else e :: mergeNewest t o m d q

/-- A granted host write is captured: it merges, or a complete WRITE record enters (R23, R24); the word of a
SHARED window goes to the conflict unit (R21). -/
def State.captureWrite (s : State) (w : Window) (o : Offset) (m : LaneMask) (d : Word) : State :=
  let s := s.modLink w.link fun k =>
    if k.mergesInto w o then
      { k with capture := { k.capture with queue := mergeNewest w.tag o m d k.capture.queue } }
    else k.enqueue (.record (.write w.tag o m d))
  s.noteCapture w.link w o

/-- A granted sweep read puts its placeholder at the tail of the link's queue (R25, R110). -/
def State.capturePlaceholder (s : State) (l : LinkId) (w : Window) (o : Offset) : State :=
  (s.modLink l (·.enqueue (.placeholder w.tag o))).noteCapture l w o

/-- The word of the placeholder in a capture queue, if it holds one (R19). -/
def placeholderWord : List CaptureEntry → Option (Tag × Offset)
  | [] => none
  | .placeholder t o :: _ => some (t, o)
  | .record _ :: q => placeholderWord q

/-- The queue after the data of its placeholder arrived: the placeholder becomes a complete WRITE in its slot, and in
a coalescing window an older complete WRITE record for the word goes (R25). -/
def fillPlaceholder (coalesce : Bool) (d : Word) : List CaptureEntry → List CaptureEntry
  | [] => []
  | .placeholder t o :: q => .record (.write t o 15 d) :: q
  | .record r :: q =>
    if coalesce && (placeholderWord q).any fun p => r.isWriteOf p.1 p.2 then fillPlaceholder coalesce d q
    else .record r :: fillPlaceholder coalesce d q

/-- The placeholder of a link is filled (R25). -/
def State.fillRead (s : State) (l : LinkId) (coalesce : Bool) (d : Word) : State :=
  s.modLink l fun k =>
    { k with capture := { k.capture with queue := fillPlaceholder coalesce d k.capture.queue } }

/-- The placeholder of a link is removed unfilled, if the queue still holds it: an emptied queue stops the
flush timer (R25, R27), and at SENIOR rank the word's pending entry is settled (R95). -/
def State.removePlaceholder (s : State) (l : LinkId) : State :=
  s.modLink l fun k =>
    match placeholderWord k.capture.queue with
    | none => k
    | some (t, o) =>
      let q := k.capture.queue.filter fun e => !e.isPlaceholder
      { k with
        capture := { k.capture with
          queue := q
          flushTimer := if q.isEmpty then .stopped else k.capture.flushTimer }
        conflict :=
          if k.control.rank = .senior then k.conflict.unfilled t o (k.tx.nextSend - 1) q else k.conflict }

/-! ## Frame build -/

/-- The STALE items of the windows with these indices (R31). -/
def State.noticeItems (s : State) (is : List Index) : List Record :=
  is.filterMap fun i => (s.window i).map fun w => .stale w.tag

/-- The frame builder makes one frame of at most `n` items: notices in increasing window index, then complete
records from the head of the queue (R31); the frame takes its three numbers and its check (R32, R165); the
state it used is settled (R33). -/
def State.buildFrame (s : State) (l : LinkId) (n : Nat) : State :=
  let k := s.link l
  let placed := (s.noticeWindows l).take n
  let records := (availableRecords k.capture.queue).take (n - placed.length)
  let items := s.noticeItems placed ++ records
  let rest := k.capture.queue.drop records.length
  let seq := k.tx.nextSend
  let seen := k.rx.receiveExpected
  let frame : Frame := { seq, seen, items, check := frameCheck seq seen items, sent := false }
  let s := placed.foldl (fun s i => s.modWindow i fun w => { w with notice := false }) s
  let owed := s.noticeOwed l
  s.modLink l fun k =>
    { k with
      capture :=
        { queue := rest
          flushTimer := if rest.isEmpty then .stopped else .running k.config.flushTime
          flushDue := owed }
      tx := { k.tx with retransmit := k.tx.retransmit ++ [frame], nextSend := seq + 1 }
      conflict := k.conflict.build seq items rest }

/-- FRAME_BUILD: where the conditions of R30 hold, the builder of the link makes one frame of at most its
effective class of items. -/
def State.frameBuild (s : State) (l : LinkId) : State :=
  match (s.link l).control.effectiveClass with
  | some c => if s.buildReady l then s.buildFrame l c.items else s
  | none => s

end Sys2Proof.Machine
end

