-- ==== Sys2Proof/Machine/Host.lean ====
section
/-! DEFINITION. The host port: arrival, drain check, export writes, the room test, completion and
reclassification of the access in progress (chapter 9). -/

namespace Sys2Proof.Machine

/-- The access ends: the master sees this completion and the host port returns to IDLE (R136, R143). -/
def State.completeHost (s : State) (fault : Bool) (data : Option Word) : State :=
  { s with host := { HostPort.reset with completion := some { fault, data } } }

/-- The access stands in CLAIMING with this handling; its hold timer is stopped. -/
def State.claimHost (s : State) (h : Handling) : State :=
  { s with host := { s.host with phase := .claiming, handling := some h, holdTimer := .stopped } }

/-- A write acts on an export side (R137, Table 9-3). A capturing write is moved to WAIT_ROOM by the room test
of the same happening where it has no room. -/
def State.exportWrite (s : State) (i : Index) (w : Window) : State :=
  match w.exportSide with
  | none | some .stale => s.claimHost .plain
  | some .inStep | some .sweeping =>
    match s.linkState w.link with
    | .hunting | .training | .up => s.claimHost .capturing
    | .draining => (s.claimHost .plain).localStale i .linkDraining
    | .disabled | .fault => (s.claimHost .plain).localStale i .linkDown

/-- The handling of an access to an IMPORT window (R136). -/
def importHandling (p : Option WritePolicy) : AccessKind → Handling
  | .read => .plain
  | .write _ =>
    match p with
    | some .drop => .dropped
    | some .fault => .refused
    | some .pass | none => .plain

/-- An access to a window proceeds, having no drain point or none any more (R136, R137, R138). -/
def State.proceedHost (s : State) : State :=
  match s.host.access, s.hostTarget with
  | some acc, some (i, w, _) =>
    match w.direction, acc.kind with
    | .imports, kind =>
      match importHandling w.policy kind with
      | .dropped => s.completeHost false none
      | .refused => s.completeHost true none
      | .plain | .capturing => s.claimHost .plain
    | .exports, .read | .shared, .read => s.claimHost .plain
    | .exports, .write _ | .shared, .write _ => s.exportWrite i w
  | _, _ => s.claimHost .plain

/-- The queue with the drain point on the newest WRITE record for a word (R85). -/
def markNewest (t : Tag) (o : Offset) : List ApplyEntry → List ApplyEntry
  | [] => []
  | e :: q =>
    if q.any (·.record.isWriteOf t o) then e :: markNewest t o q
    else if e.record.isWriteOf t o then { e with drainPoint := true } :: q
    else e :: markNewest t o q

/-- The queue with no drain point on it. -/
def clearDrainPoint (q : List ApplyEntry) : List ApplyEntry := q.map fun e => { e with drainPoint := false }

/-- The access in progress waits behind the newest WRITE record for its word in the apply queue of the
window's link (R85). Its handling is the one its policy gives at an IMPORT window, and absent at a SHARED one until
it proceeds: the spec does not give the item while the access stands in WAIT_DRAIN (the model's choice, log
entry 24). -/
def State.waitDrain (s : State) (w : Window) (o : Offset) : State :=
  let s := s.modLink w.link fun k => { k with apply := { k.apply with queue := markNewest w.tag o k.apply.queue } }
  let handling :=
    match w.direction, s.host.access with
    | .imports, some acc => some (importHandling w.policy acc.kind)
    | _, _ => none
  { s with host := { s.host with phase := .waitDrain, handling } }

/-- An access arrives at the idle host port (R135, Table 9-2). -/
def State.arrive (s : State) (acc : Access) : State :=
  if acc.mask = 0 then s.completeHost false none
  else
    match s.windowAt acc.addr with
    | none =>
      { s with host :=
        { HostPort.reset with
          phase := .claiming, access := some acc, classification := some .noWindow, handling := some .plain } }
    | some i =>
      match s.window i with
      | none => s
      | some w =>
        let o := w.offsetOf acc.addr
        let s := { s with host :=
          { HostPort.reset with access := some acc, classification := some (.window i o) } }
        if w.importSide.isSome ∧ (s.link w.link).apply.queue.any (·.record.isWriteOf w.tag o) then s.waitDrain w o
        else s.proceedHost

/-- The drain point has ended: an access in WAIT_DRAIN whose drain point rests on no queue any more proceeds
(R86). -/
def State.endDrain (s : State) : State :=
  if s.host.phase = .waitDrain ∧ ¬ s.a.apply.hasDrainPoint ∧ ¬ s.b.apply.hasDrainPoint then s.proceedHost else s

/-- The hold timer of a write that enters or stays in WAIT_ROOM (R140). -/
def Timer.enterRoom (limit : Nat) : Timer → Timer
  | .stopped => .running limit
  | t => t.resume

/-- The room test of a held capturing write (R139, R140): a write whose capture would no longer be made becomes
plain; another stands in CLAIMING while its capture claim is eligible, and in WAIT_ROOM while it is not. -/
def State.roomTest (s : State) : State :=
  if s.host.handling = some .capturing ∧ (s.host.phase = .claiming ∨ s.host.phase = .waitRoom) then
    if ¬ s.hostCaptureMade then s.claimHost .plain
    else if s.hostEligible then
      { s with host := { s.host with phase := .claiming, holdTimer := s.host.holdTimer.pause } }
    else
      { s with host :=
        { s.host with phase := .waitRoom, holdTimer := s.host.holdTimer.enterRoom s.config.holdLimit } }
  else s

/-- Is the access held, that is, in WAIT_DRAIN, WAIT_ROOM or CLAIMING (R144)? -/
def HostPhase.held : HostPhase → Bool
  | .waitDrain | .waitRoom | .claiming => true
  | .idle | .inMemory => false

/-- No drain point exists any more. -/
def State.dropDrainPoint (s : State) : State :=
  let clear (k : Link) : Link := { k with apply := { k.apply with queue := clearDrainPoint k.apply.queue } }
  (s.modLink .a clear).modLink .b clear

/-- WINDOW_CLEAR of the window the access in progress is classified against: a held access becomes a plain
access to no window, in CLAIMING, with its drain point dropped (R7, R144); an access IN_MEMORY keeps its
place, and its completion finds no window (R8). -/
def State.forgetWindow (s : State) (i : Index) : State :=
  match s.host.classification with
  | some (.window j o) =>
    if j = i then
      if s.host.phase.held then
        let s := s.dropDrainPoint
        { s with host := { s.host with
            phase := .claiming, classification := some .noWindow, handling := some .plain,
            holdTimer := .stopped } }
      else { s with host := { s.host with classification := some (.clearedWindow j o) } }
    else s
  | _ => s

/-- Soft reset at the host port (R145): an access IN_MEMORY stays, and its completion changes no window; a held
DROP or FAULT write to an IMPORT window completes; every other held access enters CLAIMING as plain. The
queues have been emptied, so no drain point is left. -/
def State.softResetHost (s : State) : State :=
  match s.host.phase with
  | .idle => s
  | .inMemory => { s with host := { s.host with captured := false } }
  | .waitDrain | .waitRoom | .claiming =>
    match s.host.access, s.hostTarget with
    | some acc, some (_, w, _) =>
      if w.direction = .imports then
        match importHandling w.policy acc.kind with
        | .dropped => s.completeHost false none
        | .refused => s.completeHost true none
        | .plain | .capturing => s.claimHost .plain
      else s.claimHost .plain
    | _, _ => s.claimHost .plain

end Sys2Proof.Machine
end

