-- ==== Sys2Proof/Machine/Apply.lean ====
section
/-! DEFINITION. The apply queues and the apply engine: hold flag, take of a frame, removal at the head, purge,
decision of WRITE and control records (chapter 5). -/

namespace Sys2Proof.Machine

/-- The peer-hold-limit timer when the hold it measures goes from `old` to `new` (R55). -/
def followHold (limit : Nat) (old new : Bool) (t : Timer) : Timer :=
  match old, new with
  | false, true => .running (limit * Config.ticksPerMs)
  | true, false => .stopped
  | _, _ => t

/-- The hold flag of a link is evaluated against the occupancy of its apply queue (R79). In LOOP mode, while
the link is UP or DRAINING, the peer-hold-limit timer follows the flag (R55). -/
def Link.evalHold (k : Link) : Link :=
  let old := k.apply.holdFlag
  let new := holdFlagAt k.config.holdMark k.apply.queue.length old
  { k with
    apply := { k.apply with holdFlag := new }
    control := { k.control with
      peerHoldTimer :=
        if k.config.mode = .loop ∧ k.control.state.carrying then
          followHold k.config.peerHoldLimit old new k.control.peerHoldTimer
        else k.control.peerHoldTimer } }

/-- The apply queue of a link takes a frame whole: its records enter at the tail with the frame's seen value,
and the hold flag is evaluated (R78, R97). -/
def Link.takeRecords (k : Link) (seen : Seq) (items : List Record) : Link :=
  let entries := items.map fun r => { record := r, seen := some seen, drainPoint := false : ApplyEntry }
  Link.evalHold { k with apply := { k.apply with queue := k.apply.queue ++ entries } }

/-- Does the apply queue have room for a frame of this many items (R78)? -/
def Link.roomForFrame (k : Link) (count : Nat) : Bool :=
  decide (count ≤ Config.applyCapacity - k.apply.queue.length)

/-- The receiver offers an expected frame to the apply queue (R72, R78). Taken: the records enter,
receive-expected advances, the NAK-sent flag is cleared, and a record that became the head offers its seen
value (R98). Refused for room: nothing changes. -/
def State.offerFrame (s : State) (l : LinkId) (seen : Seq) (items : List Record) : State :=
  let k := s.link l
  if k.roomForFrame items.length then
    let s := s.modLink l fun k =>
      let k := k.takeRecords seen items
      { k with rx := { k.rx with receiveExpected := k.rx.receiveExpected + 1, nakSent := false } }
    if k.apply.queue.isEmpty then s.offerHead l else s
  else s

/-- The head record leaves the apply queue of a link: the hold flag is evaluated (R79), the next head offers
its seen value (R98), and a drain point that rested on the record ends (R86). -/
def State.popApply (s : State) (l : LinkId) : State :=
  let s := s.modLink l fun k =>
    Link.evalHold { k with apply := { k.apply with queue := k.apply.queue.tail, outstanding := .none } }
  (s.offerHead l).endDrain

/-- The records a purge of a tag leaves: an outstanding head stays (R87). -/
def purgeTag (t : Tag) (headOutstanding : Bool) (q : List ApplyEntry) : List ApplyEntry :=
  if headOutstanding then q.take 1 ++ q.tail.filter fun e => !decide (e.record.tag = t)
  else q.filter fun e => !decide (e.record.tag = t)

/-- WINDOW_CLEAR purges the records of a tag from the apply queue of a link (R87); a new head offers its seen
value (R98), and a drain point on a purged record ends (R86). -/
def State.purgeApply (s : State) (l : LinkId) (t : Tag) : State :=
  let k := s.link l
  let kept := decide (k.apply.outstanding ≠ .none)
  let headLeaves := !kept && k.apply.queue.head?.any fun e => decide (e.record.tag = t)
  let s := s.modLink l fun k =>
    Link.evalHold { k with apply := { k.apply with queue := purgeTag t kept k.apply.queue } }
  (if headLeaves then s.offerHead l else s).endDrain

/-- Link entry to DISABLED or FAULT at the apply queue (R88): sweep markers go, WRITE and STALE records stay
without their seen values, and the hold flag is evaluated. -/
def Link.dropMarkers (k : Link) : Link :=
  Link.evalHold { k with apply := { k.apply with
    queue := (k.apply.queue.filter fun e => !e.record.isMarker).map fun e => { e with seen := none } } }

/-! ## Decisions -/

/-- What the apply engine decides for a head WRITE (R81). -/
inductive ApplyDecision
  | discard (event : Option Cause)
  | write (i : Index) (addr : WordAddr) (mask : LaneMask) (data : Word)
deriving DecidableEq, Repr

/-- The decision for a WRITE record at the head of a link's apply queue: the first case of R81 that applies. -/
def State.decideWrite (s : State) (l : LinkId) (t : Tag) (o : Offset) (m : LaneMask) (d : Word) : ApplyDecision :=
  match s.importOf l t with
  | none => .discard (some .unknownTag)
  | some i =>
    match s.window i with
    | none => .discard (some .unknownTag)
    | some w =>
      if w.words ≤ o.toNat then .discard (some .offsetRange)
      else if w.isShared ∧ (s.link l).control.rank = .senior ∧ (s.link l).conflict.hasEntry t o then .discard none
      else .write i (w.addrOf o) m d

/-- A WRITE record is removed at its decision point without a memory write (R81, R84). -/
def State.discardHead (s : State) (l : LinkId) (t : Tag) (event : Option Cause) : State :=
  let s :=
    match event with
    | some c => s.raise (.recordDiscarded l t c 1)
    | none => s
  s.popApply l

/-- A control record at its decision point acts on the import state of its window (R83, Table 5-1). -/
def State.applyControl (s : State) (l : LinkId) (r : Record) : State :=
  match s.importOf l r.tag with
  | none => s
  | some i =>
    match r with
    | .sweepOpen _ => s.modWindow i (·.withImport .filling)
    | .sweepClose _ =>
      if (s.window i).any fun w => decide (w.importSide = some .filling) then
        (s.modWindow i (·.withImport .inStep)).raise (.windowInStep i .importSide)
      else s
    | .stale _ => s.importStale i .peerNotice
    | .write _ _ _ _ => s

end Sys2Proof.Machine
end

