-- ==== Sys2Proof/Machine/LinkControl.lean ====
section
/-! DEFINITION. Link control: entry to DISABLED, FAULT, DRAINING, HUNTING and UP, with the reaction of every
block of the link (chapter 8). -/

namespace Sys2Proof.Machine

/-! ## The transmitter and the receiver at link entries -/

/-- The transmitter at entry to DISABLED or FAULT: line cut, list emptied, sequence values 0, ack timer
stopped, retry count 0, peer hold and NAK request cleared (R57). -/
def Link.stopTx (k : Link) : Link := { k with tx := .reset }

/-- The receiver at entry to DISABLED or FAULT (R75). -/
def Link.stopRx (k : Link) : Link := { k with rx := .reset }

/-- The blocks of a link, but for the window table, the sweep engine and the host port, at entry to DISABLED
or FAULT (R130, Table 8-5). -/
def Link.goDown (k : Link) (reason : Option FaultReason) : Link :=
  let control : LinkControl :=
    { k.control with
      state := if reason.isSome then .fault else .disabled
      faultReason := reason, effectiveClass := none, rank := .unknown
      trainingTimer := .stopped, peerHoldTimer := .stopped }
  Link.dropMarkers
    (Link.stopRx (Link.stopTx { k with control, capture := .reset, conflict := .reset }))

/-- A window of a link that goes down: each side STALE, the notice cleared (R15). -/
def Window.linkDown (l : LinkId) (w : Window) : Window :=
  if w.link = l then w.allStale else w

/-- A link enters DISABLED (no reason) or FAULT (R130): the link takes the new state, an active sweep is
aborted with LINK_LEFT_UP, every block reacts (Table 8-5), and LINK_DISABLED or LINK_FAULT is raised. -/
def State.enterDown (s : State) (l : LinkId) (reason : Option FaultReason) : State :=
  let s := s.modLink l (·.goDown reason)
  let s := s.abortSweep l .linkLeftUp
  let s := s.modWindows (Window.linkDown l)
  match reason with
  | some r => s.raise (.linkFault l r)
  | none => s.raise (.linkDisabled l)

/-- A fault cause reaches link control; in DISABLED and FAULT it is dropped (R129). -/
def State.faultLink (s : State) (l : LinkId) (r : FaultReason) : State :=
  if (s.linkState l).running then s.enterDown l (some r) else s

/-- An UP link enters DRAINING: its active sweep is aborted with LINK_LEFT_UP (R128). -/
def State.enterDraining (s : State) (l : LinkId) : State :=
  (s.modLink l fun k => { k with control := { k.control with state := .draining } }).abortSweep l .linkLeftUp

/-- A DRAINING link whose capture queue and retransmit list are empty, with no notice owed, enters DISABLED
(R128). -/
def State.drainComplete (s : State) (l : LinkId) : State :=
  let k := s.link l
  if k.control.state = .draining ∧ k.capture.queue = [] ∧ k.tx.retransmit = [] ∧ ¬ s.noticeOwed l then
    s.enterDown l none
  else s

/-! ## Peer hold -/

/-- The peer hold of a NORMAL-mode link becomes `b`: the peer-hold-limit timer starts or stops (R55), and the
ack timer pauses or resumes (R49, R53). -/
def Link.setPeerHold (k : Link) (b : Bool) : Link :=
  { k with
    control := { k.control with
      peerHoldTimer := followHold k.config.peerHoldLimit k.tx.peerHold b k.control.peerHoldTimer }
    tx := { k.tx with
      peerHold := b
      ackTimer := if b then k.tx.ackTimer.pause else k.tx.ackTimer.resume } }

/-! ## Entry to UP -/

/-- The transmitter, the receiver and the conflict unit at entry to UP: sequence values and horizon 0, retry
count 0, ack timer stopped, NAK request and NAK-sent cleared (R59, R75, R103); at JUNIOR and SELF rank the
pending-write table is emptied. -/
def Link.startUp (k : Link) (rank : Rank) (cls : FrameClass) : Link :=
  { k with
    control := { k.control with
      state := .up, rank, effectiveClass := some cls, trainingTimer := .stopped }
    tx := { k.tx with
      nextSend := 0, oldest := 0, retryCount := 0, ackTimer := .stopped, nakRequest := false, idleSent := false }
    rx := { k.rx with receiveExpected := 0, nakSent := false }
    conflict :=
      { table := if rank = .junior ∨ rank = .self then [] else k.conflict.table, horizon := 0 } }

/-- The effective class: 16 when both sides accept 16, and 8 otherwise (R125). -/
def effectiveClassOf (own peer : FrameClass) : FrameClass :=
  match own, peer with
  | .sixteen, .sixteen => .sixteen
  | _, _ => .eight

/-- A TRAINING link with the peer recorded enters UP, the peer hold becoming `hold` (R125, R91, R53). -/
def State.enterUp (s : State) (l : LinkId) (p : Peer) (hold : Bool) : State :=
  let rank : Rank := if p.id.toNat < s.config.nodeId.toNat then .senior else .junior
  let s := s.modLink l fun k =>
    (k.startUp rank (effectiveClassOf k.config.frameClass p.acceptance)).setPeerHold hold
  s.raise (.linkUp l p.id rank)

/-- A LOOP-mode link enters UP at its LINK_ENABLE (R131); the peer-hold-limit timer starts where the link's own
hold flag is set (R55). -/
def State.enterUpLoop (s : State) (l : LinkId) : State :=
  let id := s.config.nodeId
  let s := s.modLink l fun k =>
    let k := k.startUp .self k.config.frameClass
    { k with control := { k.control with
        faultReason := none
        peer := some { id, acceptance := k.config.frameClass }
        peerHoldTimer :=
          if k.apply.holdFlag then .running (k.config.peerHoldLimit * Config.ticksPerMs) else .stopped } }
  s.raise (.linkUp l id .self)

/-- The HELLO a link sends: node id, class-16 acceptance, and seen-you while the peer is recorded (R41). -/
def Link.hello (k : Link) (nodeId : Byte) : Symbol :=
  helloSymbol nodeId (decide (k.config.frameClass = .sixteen)) k.control.peer.isSome

/-- A NORMAL-mode link enters HUNTING at its LINK_ENABLE (R121): the training timer starts, no peer is
recorded, HELLOs start with seen-you clear, and the receiver begins to examine the line in HUNT (R75). -/
def State.enterHunting (s : State) (l : LinkId) : State :=
  let id := s.config.nodeId
  s.modLink l fun k =>
    let k := { k with
      control := { k.control with
        state := .hunting, faultReason := none, peer := none
        trainingTimer := .running (k.config.trainingTimeout * Config.ticksPerMs) }
      rx := { k.rx with alignment := .hunt, huntRun := 0, silenceTimer := .running k.config.silenceLimit } }
    { k with tx := { k.tx with output := .symbol (k.hello id) } }

end Sys2Proof.Machine
end

