-- ==== Sys2Proof/Machine/Transmit.lean ====
section
/-! DEFINITION. The link transmitter: acknowledgement, go-back, frame start and the choice of the next symbol
(chapter 3), and what closes every happening (`finish`). -/

namespace Sys2Proof.Machine

/-! ## Acknowledgement and go-back -/

/-- Does the list hold a frame marked sent? -/
def anySent (fs : List Frame) : Bool := fs.any (·.sent)

/-- The ack timer after progress (R46, Table 3-4): restarted from the full timeout while a sent frame remains,
staying paused if it was; stopped otherwise. -/
def progressTimer (full : Nat) (sentRemains : Bool) (t : Timer) : Timer :=
  if sentRemains then
    match t with
    | .running _ => .running full
    | .paused _ => .paused full
    | .stopped => .stopped
  else .stopped

/-- The transmitter after an ack value: the run of head frames before it is removed, and removal of at least
one is progress (R46). -/
def Link.acknowledge (k : Link) (a : Seq) : Link :=
  let rest := k.tx.retransmit.dropWhile fun f => before f.seq a
  if rest.length = k.tx.retransmit.length then k
  else
    { k with tx := { k.tx with
        retransmit := rest
        oldest := (rest.head?.map (·.seq)).getD k.tx.nextSend
        retryCount := 0
        ackTimer := progressTimer k.config.ackTimeout (anySent rest) k.tx.ackTimer } }

/-- Go-back: every frame unsent, the retry count raised, the ack timer stopped; a count above the retry limit
faults the link with NO_PROGRESS (R48, R51). -/
def State.goBack (s : State) (l : LinkId) : State :=
  let s := s.modLink l fun k =>
    { k with tx := { k.tx with
        retransmit := k.tx.retransmit.map fun f => { f with sent := false }
        retryCount := k.tx.retryCount + 1
        ackTimer := .stopped } }
  if (s.link l).config.retryLimit < (s.link l).tx.retryCount then s.faultLink l .noProgress else s

/-- An IDLE of the peer acts on the transmitter: its ack first, then its hold flag (R54). -/
def State.receiveIdle (s : State) (l : LinkId) (ack : Seq) (hold : Bool) : State :=
  s.modLink l fun k => (k.acknowledge ack).setPeerHold hold

/-- A NAK of the peer acts as an ack, and then causes go-back if it names the head frame (R47). -/
def State.receiveNak (s : State) (l : LinkId) (expected : Seq) : State :=
  let s := s.modLink l (·.acknowledge expected)
  if (s.link l).tx.retransmit.head?.any (fun f => decide (f.seq = expected)) then s.goBack l else s

/-! ## Frame start and the choice of the next symbol -/

/-- The list with its oldest unsent frame marked sent (R44). -/
def markFirstUnsent : List Frame → List Frame
  | [] => []
  | f :: fs => if f.sent then f :: markFirstUnsent fs else { f with sent := true } :: fs

/-- A frame start: the oldest unsent frame is marked sent and is in transmission; in NORMAL mode the ack timer
starts if it is the first sent frame of the list (R44, R49, R56). -/
def Link.startFrame (k : Link) : Link :=
  match k.tx.retransmit.find? fun f => !f.sent with
  | none => k
  | some f =>
    { k with tx := { k.tx with
        retransmit := markFirstUnsent k.tx.retransmit
        output := .frame { f with sent := true }
        ackTimer :=
          if k.config.mode = .normal ∧ ¬ anySent k.tx.retransmit then .running k.config.ackTimeout
          else k.tx.ackTimer } }

/-- May a frame start at a choice point (R39, rule 2)? -/
def Link.mayStartFrame (k : Link) : Bool :=
  k.tx.retransmit.any (fun f => !f.sent) && !k.peerHold && k.tx.idleSent

/-- The choice at a choice point in UP or DRAINING: a requested NAK, else a frame, else an IDLE (R39, R40,
R42). -/
def Link.chooseSymbol (k : Link) : Link :=
  if k.tx.nakRequest then
    { k with tx := { k.tx with nakRequest := false, output := .symbol (nakSymbol k.rx.receiveExpected) } }
  else if k.mayStartFrame then k.startFrame
  else
    { k with tx := { k.tx with
        idleSent := true
        output := .symbol (idleSymbol k.rx.receiveExpected k.tx.nextSend k.apply.holdFlag) } }

/-- A choice point outside a frame: the choice of R39 in UP and DRAINING, a HELLO in HUNTING and TRAINING
(R38, R41). -/
def Link.choicePoint (k : Link) (nodeId : Byte) : Link :=
  match k.control.state with
  | .up | .draining => k.chooseSymbol
  | .hunting | .training => { k with tx := { k.tx with output := .symbol (k.hello nodeId) } }
  | .disabled | .fault => k

/-- In LOOP mode a frame start happens in any happening after which no frame is in transmission, an unsent frame
is listed and the peer hold is clear (R56). -/
def Link.loopStart (k : Link) : Link :=
  if k.config.mode = .loop ∧ k.control.state.carrying ∧ k.tx.output = .rest ∧ ¬ k.peerHold then k.startFrame else k

/-! ## The end of a happening -/

/-- What every happening ends with: a drain that is complete takes its link to DISABLED (R128), LOOP-mode links
start a frame they can start (R56), the held write is tested for room (R139), and INTN follows the event
queue (R161). -/
def State.finish (s : State) : State :=
  let s := (s.drainComplete .a).drainComplete .b
  let s := (s.modLink .a Link.loopStart).modLink .b Link.loopStart
  s.roomTest.driveIntn

/-- A happening outside the management port: where it can occur, `act` and then what every happening ends with.
Nothing happens while hardware reset lasts (R17, R37, R58, R76, R89, R105, R117, R133, R146, R152), and a
happening whose condition does not hold does not occur: the state is as it was. -/
def State.happening (s : State) (can : Bool) (act : State → State) : Host.Outcome State Fault Refusal :=
  .next (if !s.inReset && can then (act s).finish else s)

/-- The end of a frame in LOOP mode: it is delivered to the link's own receiver (R56, R74). Taken, it leaves the
retransmit list; refused for room, it stays at the head, unsent. -/
def State.loopDeliver (s : State) (l : LinkId) (f : Frame) : State :=
  let s := s.modLink l fun k => { k with tx := { k.tx with output := .rest } }
  if (s.link l).rx.receiveExpected = f.seq ∧ (s.link l).roomForFrame f.items.length then
    (s.modLink l (·.acknowledge (f.seq + 1))).offerFrame l f.seen f.items
  else
    s.modLink l fun k => { k with tx := { k.tx with
      retransmit := k.tx.retransmit.map fun g => if g.seq = f.seq then { g with sent := false } else g } }

end Sys2Proof.Machine
end

