-- ==== Sys2Proof/Machine/Arbiter.lean ====
section
/-! DEFINITION. The memory port and its arbiter: claims, choice, grants, completions (chapter 10), and the
commands ARBITER_CHOICE, MEMORY_COMPLETION and CONTROL_RECORD_DECISION. -/

namespace Sys2Proof.Machine

/-! ## The choice -/

/-- What the arbiter chooses. -/
inductive Choice
  | host
  | apply (l : LinkId)
  | sweep (l : LinkId)
deriving DecidableEq, Repr

/-- Between two claims of a kind the pointer decides; a single claim is taken whatever it names (R151). -/
def pick (pointer : LinkId) (claims : LinkId → Bool) : Option LinkId :=
  if claims pointer then some pointer
  else if claims (otherLink pointer) then some (otherLink pointer)
  else none

/-- Step 1: an apply claim of an urgent link (R149). -/
def State.urgentChoice (s : State) : Option Choice :=
  (pick s.applyPointer fun l => (s.link l).applyClaim && (s.link l).urgent).map .apply

/-- Step 2: a non-host claim whose patience count has reached its share, apply claims first (R149, R150). -/
def State.patientChoice (s : State) : Option Choice :=
  ((pick s.applyPointer fun l =>
      (s.link l).applyClaim && decide (s.config.applyShare ≤ (s.link l).patience.apply)).map .apply).or
  ((pick s.sweepPointer fun l =>
      s.sweepEligible l && decide (s.config.sweepShare ≤ (s.link l).patience.sweep)).map .sweep)

/-- Step 3: the host claim, where it is eligible (R149, R148). -/
def State.hostChoice (s : State) : Option Choice :=
  if s.host.phase = .claiming ∧ s.hostEligible then some .host else none

/-- Step 4: remaining work, an apply claim and failing that a sweep claim (R149). -/
def State.remainingChoice (s : State) : Option Choice :=
  ((pick s.applyPointer fun l => (s.link l).applyClaim).map .apply).or
  ((pick s.sweepPointer s.sweepEligible).map .sweep)

/-- The first step of R149 that yields an eligible claim. -/
def State.choose (s : State) : Option Choice :=
  ((s.urgentChoice.or s.patientChoice).or s.hostChoice).or s.remainingChoice

/-! ## Grants -/

/-- A count rises by one at a host grant made while its claim is presented, up to its share (R150). -/
def bump (presented : Bool) (share n : Nat) : Nat := if presented && decide (n < share) then n + 1 else n

/-- Every non-host claimant with a claim presented counts a host grant (R150). -/
def State.countHostGrant (s : State) : State :=
  let count (l : LinkId) (k : Link) : Link :=
    { k with patience :=
      { apply := bump k.applyClaim s.config.applyShare k.patience.apply
        sweep := bump (s.sweepClaim l).isSome s.config.sweepShare k.patience.sweep } }
  (s.modLink .a (count .a)).modLink .b (count .b)

/-- The grant of the host claim (R142, R147): the access enters IN_MEMORY and its transaction is issued, and a
capturing write is captured where its capture would still be made (R23). -/
def State.grantHost (s : State) : State :=
  match s.host.access with
  | none => s
  | some acc =>
    let capture := decide (s.host.handling = some .capturing) && s.hostCaptureMade
    let granted := { s.countHostGrant with
      port := some { owner := .host, kind := acc.kind, addr := acc.addr, mask := acc.mask }
      host := { s.host with phase := .inMemory, captured := capture, holdTimer := .stopped } }
    match capture, acc.kind, s.hostTarget with
    | true, .write d, some (_, w, o) => granted.captureWrite w o acc.mask d
    | _, _, _ => granted

/-- The grant of a sweep read (R110): a read of the word with lane mask 15, its placeholder, and the read
current; the engine's count becomes 0 and the sweep pointer moves to the other link (R150, R151). -/
def State.grantSweep (s : State) (l : LinkId) : State :=
  match s.sweepClaim l with
  | none => s
  | some (_, w, o) =>
    let s := s.capturePlaceholder l w o
    let s := s.modLink l fun k =>
      { k with sweep := { k.sweep with read := .current }, patience := { k.patience with sweep := 0 } }
    { s with
      port := some { owner := .sweep l, kind := .read, addr := w.addrOf o, mask := 15 }
      sweepPointer := otherLink l }

/-- The grant of an apply write (R81, case 4): the record becomes outstanding for its window; the claimant's
count becomes 0 and the apply pointer moves to the other link (R150, R151). -/
def State.grantApply (s : State) (l : LinkId) (i : Index) (addr : WordAddr) (m : LaneMask) (d : Word) : State :=
  let s := s.modLink l fun k =>
    { k with apply := { k.apply with outstanding := .forWindow i }, patience := { k.patience with apply := 0 } }
  { s with port := some { owner := .apply l, kind := .write d, addr, mask := m }, applyPointer := otherLink l }

/-- The arbiter chooses while the port is free: a discard makes a new choice among the claims as they then
stand (R148, R149). `fuel` bounds the discards of one happening by the records queued. -/
def State.arbitrate : Nat → State → State
  | 0, s => s
  | fuel + 1, s =>
    if s.port.isSome then s
    else
      match s.choose with
      | none => s
      | some .host => s.grantHost
      | some (.sweep l) => s.grantSweep l
      | some (.apply l) =>
        match (s.link l).apply.queue.head?.map ApplyEntry.record with
        | some (Record.write t o m d) =>
          match s.decideWrite l t o m d with
          | .write i addr m d => s.grantApply l i addr m d
          | .discard event => State.arbitrate fuel (s.discardHead l t event).roomTest
        | _ => s

/-- The choice made in a happening, with room for every discard the queues can hold. -/
def State.arbiterChoice (s : State) : State :=
  s.arbitrate (s.a.apply.queue.length + s.b.apply.queue.length + 1)

/-- ARBITER_CHOICE: the port is free and a step of R149 yields a claim. -/
def execArbiterChoice (s : State) : Host.Outcome State Fault Refusal :=
  s.happening (s.port.isNone && s.choose.isSome) State.arbiterChoice

/-! ## Completions -/

/-- The memory completes the transaction of the access in progress (R143): the access completes to the master,
and a FAULT on a captured write reports MEMORY_FAULT for its window. -/
def State.completeHostAccess (s : State) (kind : AccessKind) (status : MemStatus) : State :=
  let target := if s.host.captured then s.hostTarget else none
  match status with
  | .ok d => s.completeHost false (if kind = .read then some d else none)
  | .fault =>
    let s := s.completeHost true none
    match target with
    | some (i, _, _) => s.localStale i .memoryFault
    | none => s

/-- The memory completes an apply write (R82): the record leaves the head of its queue; a FAULT makes the import
side of the window it was decided against STALE. Where no record is outstanding, nothing changes (R90). -/
def State.completeApply (s : State) (l : LinkId) (status : MemStatus) : State :=
  match (s.link l).apply.outstanding with
  | .none => s
  | .windowCleared => s.popApply l
  | .forWindow i =>
    let s := s.popApply l
    match status with
    | .ok _ => s
    | .fault => s.importStale i .applyFault

/-- The memory completes a current sweep read with OK (R111): the placeholder is filled, and the engine goes to
the next word, or to CLOSING after the last. -/
def State.sweepReadOk (s : State) (l : LinkId) (sw : ActiveSweep) (w : Window) (d : Word) : State :=
  let s := s.fillRead l (decide (w.coalesce = some true)) d
  let next : ActiveSweep :=
    if sw.next.toNat + 1 < w.words then { sw with next := sw.next + 1 } else { sw with phase := .closing }
  s.modLink l fun k => { k with sweep := { k.sweep with active := some next } }

/-- The memory completes a sweep read (R111, R115, R116). A current read fills its placeholder, or aborts the
sweep on FAULT; an orphan read only removes its placeholder; with no read outstanding, nothing changes
(R117). -/
def State.completeSweep (s : State) (l : LinkId) (status : MemStatus) : State :=
  let read := (s.link l).sweep.read
  let s := s.modLink l fun k => { k with sweep := { k.sweep with read := .none } }
  match read, (s.link l).sweep.active with
  | .none, _ => s
  | .orphan, _ => s.removePlaceholder l
  | .current, none => s.removePlaceholder l
  | .current, some sw =>
    match status, s.window sw.window with
    | .ok d, some w => s.sweepReadOk l sw w d
    | .ok _, none => s.removePlaceholder l
    | .fault, _ => (s.removePlaceholder l).abortSweep l .memoryFault

/-- The completion is handed to its owner (R147); after a hardware reset to nobody (R152). -/
def State.completeOwner (s : State) (t : PortTransaction) (status : MemStatus) : State :=
  match t.owner with
  | .host => s.completeHostAccess t.kind status
  | .apply l => s.completeApply l status
  | .sweep l => s.completeSweep l status
  | .nobody => s

/-- The outstanding transaction ends (R147): the port becomes free, the owner acts, the held write is tested for
room (R139), and a new choice is made in the same happening (R149). -/
def State.complete (s : State) (t : PortTransaction) (status : MemStatus) : State :=
  (({ s with port := none : State }.completeOwner t status).roomTest).arbiterChoice

/-- MEMORY_COMPLETION: the memory completes the outstanding transaction (R147). While hardware reset lasts, the
port becomes free and nothing else happens (R152). -/
def execMemoryCompletion (status : MemStatus) (s : State) : Host.Outcome State Fault Refusal :=
  match s.port with
  | none => .next s
  | some t => .next (if s.inReset then { s with port := none } else (s.complete t status).finish)

/-- The control record at the head of a link's apply queue, if one stands there (R80). -/
def Link.controlHead (k : Link) : Option Record :=
  (k.apply.queue.head?.map (·.record)).filter fun r => !r.isWrite

/-- The control record at the head acts on its window's import state and leaves the queue (R83). -/
def State.decideControl (s : State) (l : LinkId) : State :=
  match (s.link l).controlHead with
  | some r => (s.applyControl l r).popApply l
  | none => s

/-- CONTROL_RECORD_DECISION: the decision point of the control record at a link's head (R80, R83). -/
def execControlRecordDecision (l : LinkId) (s : State) : Host.Outcome State Fault Refusal :=
  s.happening (s.link l).controlHead.isSome (·.decideControl l)

end Sys2Proof.Machine
end

