-- ==== Sys2Proof/Machine/Frames.lean ====
section
/-! DEFINITION. The happenings of the outbound path: FRAME_BUILD, FLUSH_TIMER_EXPIRY, TRANSMIT_CHOICE_POINT,
FRAME_END, ACK_TIMER_EXPIRY and PEER_HOLD_LIMIT_EXPIRY (chapters 2 and 3). -/

namespace Sys2Proof.Machine

/-- FRAME_BUILD: the builder of a link makes one frame where the conditions of R30 hold (R31). -/
def execFrameBuild (l : LinkId) (s : State) : Host.Outcome State Fault Refusal :=
  s.happening ((s.link l).control.effectiveClass.isSome && s.buildReady l) (·.frameBuild l)

/-- The flush timer stops and sets flush due (R27, R28). -/
def Link.flushExpiry (k : Link) : Link :=
  { k with capture := { k.capture with flushTimer := .stopped, flushDue := true } }

/-- FLUSH_TIMER_EXPIRY: the flush timer of a link has run out (R27, log entry 3). -/
def execFlushTimerExpiry (l : LinkId) (s : State) : Host.Outcome State Fault Refusal :=
  s.happening (s.link l).capture.flushTimer.hasRunOut (·.modLink l Link.flushExpiry)

/-- Is a symbol outside a frame on the line (R39)? -/
def Output.isSymbol : Output → Bool
  | .symbol _ => true
  | .rest | .frame _ => false

/-- TRANSMIT_CHOICE_POINT: a symbol outside a frame ends on the line of a NORMAL-mode link that sends, and the
transmitter chooses the next one (R38, R39). -/
def execTransmitChoicePoint (l : LinkId) (s : State) : Host.Outcome State Fault Refusal :=
  s.happening
    (decide ((s.link l).config.mode = .normal) && (s.linkState l).running && (s.link l).tx.output.isSymbol)
    (fun s => s.modLink l (·.choicePoint s.config.nodeId))

/-- The end of a frame (R44): a choice point in NORMAL mode, no IDLE having been sent since (R39); in LOOP mode
the frame is delivered (R56). -/
def State.endFrame (s : State) (l : LinkId) : State :=
  match (s.link l).tx.output with
  | .frame f =>
    match (s.link l).config.mode with
    | .normal =>
      s.modLink l fun k => Link.chooseSymbol { k with tx := { k.tx with idleSent := false } }
    | .loop => s.loopDeliver l f
  | .rest | .symbol _ => s

/-- Is a frame in transmission (R44)? -/
def Output.isFrame : Output → Bool
  | .frame _ => true
  | .rest | .symbol _ => false

/-- FRAME_END: the check symbol of the frame in transmission completes, on a link that is UP or DRAINING
(R44). -/
def execFrameEnd (l : LinkId) (s : State) : Host.Outcome State Fault Refusal :=
  s.happening ((s.linkState l).carrying && (s.link l).tx.output.isFrame) (·.endFrame l)

/-- ACK_TIMER_EXPIRY: the ack timer of a link has run out, and go-back follows (R50). Progress taken first has
restarted the timer, and the expiry does not happen. A NAK whose go-back came first has stopped it, so the expiry
causes no second go-back: R50 says that the second causes one only if it is the NAK, and also that either order
counts two, and the model follows the first (log entry 23). -/
def execAckTimerExpiry (l : LinkId) (s : State) : Host.Outcome State Fault Refusal :=
  s.happening (s.link l).tx.ackTimer.hasRunOut (·.goBack l)

/-- PEER_HOLD_LIMIT_EXPIRY: the peer-hold-limit timer of an UP or DRAINING link has run out, and the link enters
FAULT with HOLD_EXPIRED (R55, log entry 3). -/
def execPeerHoldLimitExpiry (l : LinkId) (s : State) : Host.Outcome State Fault Refusal :=
  s.happening ((s.linkState l).carrying && (s.link l).control.peerHoldTimer.hasRunOut) (·.faultLink l .holdExpired)

end Sys2Proof.Machine
end

