-- ==== Sys2Proof/Machine/HostPort.lean ====
section
/-! DEFINITION. The happenings of the host port: HOST_ACCESS_ARRIVAL and CAPTURE_HOLD_EXPIRY (chapter 9). -/

namespace Sys2Proof.Machine

/-- HOST_ACCESS_ARRIVAL: the master presents an access while the host port is IDLE (R135). -/
def execHostAccessArrival (acc : Access) (s : State) : Host.Outcome State Fault Refusal :=
  s.happening (decide (s.host.phase = .idle)) (·.arrive acc)

/-- The hold timer of the write in WAIT_ROOM runs out (R141): the write becomes plain and enters CLAIMING, and
CAPTURE_TIMEOUT is reported for its window. -/
def State.holdExpiry (s : State) : State :=
  match s.hostTarget with
  | some (i, _, _) => (s.claimHost .plain).localStale i .captureTimeout
  | none => s.claimHost .plain

/-- CAPTURE_HOLD_EXPIRY: the hold timer of a write in WAIT_ROOM has run out (R141, log entry 3). -/
def execCaptureHoldExpiry (s : State) : Host.Outcome State Fault Refusal :=
  s.happening (decide (s.host.phase = .waitRoom) && s.host.holdTimer.hasRunOut) State.holdExpiry

end Sys2Proof.Machine
end

