-- ==== Sys2Proof/Machine/Receive.lean ====
section
/-! DEFINITION. The link receiver: alignment, line loss, frame assembly and classification (chapter 4), and the
commands SYMBOL_ARRIVAL and SILENCE_TIMER_EXPIRY. -/

namespace Sys2Proof.Machine

/-! ## Examination and alignment -/

/-- Does the receiver examine the line: NORMAL mode, and HUNTING, TRAINING, UP or DRAINING (R61)? -/
def Link.examines (k : Link) : Bool := decide (k.config.mode = .normal) && k.control.state.running

/-- The silence timer starts from its full value (R63). -/
def Link.restartSilence (k : Link) : Link :=
  { k with rx := { k.rx with silenceTimer := .running k.config.silenceLimit } }

/-- Is the symbol an IDLE or a HELLO, the symbols that count toward alignment (R62)? -/
def SymbolKind.aligns : SymbolKind → Bool
  | .idle _ _ _ | .hello _ _ _ => true
  | _ => false

/-- The third IDLE or HELLO in a row: the receiver is ALIGNED, and a HUNTING link enters TRAINING (R62, R123). -/
def Link.align (k : Link) : Link :=
  { k with
    rx := { k.rx with alignment := .aligned, huntRun := 0, malformedRun := 0, assembly := none }
    control := { k.control with
      state := if k.control.state = .hunting then .training else k.control.state } }

/-- Line loss (R64): the receiver goes to HUNT and a frame under assembly is discarded. A TRAINING link returns
to HUNTING with the peer forgotten, the silence timer started again (R63, R75, R123); an UP or DRAINING link
enters FAULT with LINE_LOST. -/
def State.lineLoss (s : State) (l : LinkId) : State :=
  let s := s.modLink l fun k => Link.restartSilence
    { k with rx := { k.rx with alignment := .hunt, huntRun := 0, malformedRun := 0, assembly := none } }
  match s.linkState l with
  | .training => s.modLink l fun k => { k with control := { k.control with state := .hunting, peer := none } }
  | .up | .draining => s.faultLink l .lineLost
  | .disabled | .hunting | .fault => s

/-! ## NAK requests and damage -/

/-- The receiver asks for a NAK under the flag rule (R73, R42). -/
def Link.requestNak (k : Link) : Link :=
  if k.rx.nakSent then k
  else { k with rx := { k.rx with nakSent := true }, tx := { k.tx with nakRequest := true } }

/-- The frame under assembly is damaged: discarded whole, with a NAK request (R69). -/
def Link.damage (k : Link) : Link := Link.requestNak { k with rx := { k.rx with assembly := none } }

/-- A frame under assembly, if there is one, is damaged (R69). -/
def Link.damageAssembly (k : Link) : Link := if k.rx.assembly.isSome then k.damage else k

/-! ## Assembly -/

/-- A FRAME_START begins a frame, the running check starting over its payload (R67, R165). A count above the
class this part announces damages it at once. -/
def Link.beginFrame (k : Link) (seq seen : Seq) (count : Nat) (payload : Payload) : Link :=
  if k.config.frameClass.items < count then k.damage
  else
    let asm : Assembly :=
      { seq, seen, count, records := [], part := none, check := crcPayload crcStart payload }
    { k with rx := { k.rx with assembly := some asm } }

/-- What a DATA symbol does to a frame under assembly (R68, R70). -/
inductive Collected
  | more (asm : Assembly)
  | damaged
  | undamaged (seq seen : Seq) (items : List Record)
deriving DecidableEq, Repr

/-- A DATA symbol begins a record (R68, Table 12-3): a WRITE with lane mask 0, and a control record whose
lane-mask or offset bits are not 0, are illegal in place. -/
def Assembly.beginRecord (asm : Assembly) (p : Payload) : Collected :=
  let tag : Tag := p.extractLsb' 8 6
  let low : Byte := p.extractLsb' 0 8
  match (p.extractLsb' 14 2).toNat with
  | 0 =>
    if p.extractLsb' 4 4 = 0#4 then .damaged
    else .more { asm with part := some (.first tag (p.extractLsb' 4 4) (p.extractLsb' 0 4)) }
  | 1 => if low = 0 then .more { asm with records := asm.records ++ [.sweepOpen tag] } else .damaged
  | 2 => if low = 0 then .more { asm with records := asm.records ++ [.sweepClose tag] } else .damaged
  | _ => if low = 0 then .more { asm with records := asm.records ++ [.stale tag] } else .damaged

/-- A DATA symbol is collected by a frame under assembly (R68): the check symbol ends it (R70), and every other
symbol enters the running check. -/
def Assembly.collect (asm : Assembly) (p : Payload) : Collected :=
  let next := { asm with check := crcPayload asm.check p }
  match asm.part with
  | some (.first t m h) => .more { next with part := some (.second t m (h ++ p : BitVec 20)) }
  | some (.second t m o) => .more { next with part := some (.third t m o p) }
  | some (.third t m o dh) =>
    .more { next with part := none, records := asm.records ++ [.write t o m (dh ++ p : BitVec 32)] }
  | none =>
    if asm.records.length < asm.count then next.beginRecord p
    else if p = asm.check then .undamaged asm.seq asm.seen asm.records
    else .damaged

/-- How an undamaged frame compares with receive-expected (R71). -/
inductive FrameClassification
  | expected
  | duplicate
  | gap
deriving DecidableEq, Repr

/-- The class of a frame with seq `q` against receive-expected `x` (Table 4-3). -/
def classify (q x : Seq) : FrameClassification :=
  if q = x then .expected else if before q x then .duplicate else .gap

/-- An undamaged frame is classified: an expected one is offered to the apply queue, a duplicate is discarded,
a gap asks for a NAK (R71, R72, R73). -/
def State.classifyFrame (s : State) (l : LinkId) (seq seen : Seq) (items : List Record) : State :=
  match classify seq (s.link l).rx.receiveExpected with
  | .expected => s.offerFrame l seen items
  | .duplicate => s
  | .gap => s.modLink l Link.requestNak

/-- A DATA symbol arrives while the link is UP or DRAINING; without a frame under assembly it is stray (R65). -/
def State.receiveData (s : State) (l : LinkId) (p : Payload) : State :=
  match (s.link l).rx.assembly with
  | none => s
  | some asm =>
    match asm.collect p with
    | .more asm' => s.modLink l fun k => { k with rx := { k.rx with assembly := some asm' } }
    | .damaged => s.modLink l Link.damage
    | .undamaged seq seen items =>
      (s.modLink l fun k => { k with rx := { k.rx with assembly := none } }).classifyFrame l seq seen items

/-! ## Symbols while ALIGNED -/

/-- A HELLO in TRAINING (R124): a peer id of 0, 255 or the part's own faults the link with ID_CLASH; any other
peer is recorded, and a set seen-you flag brings the link UP (R125). -/
def State.helloInTraining (s : State) (l : LinkId) (id : Byte) (class16 seenYou : Bool) : State :=
  if id = 0 ∨ id = 255 ∨ id = s.config.nodeId then s.faultLink l .idClash
  else
    let p : Peer := { id, acceptance := if class16 then .sixteen else .eight }
    let s := s.modLink l fun k => { k with control := { k.control with peer := some p } }
    if seenYou then s.enterUp l p false else s

/-- An IDLE in TRAINING brings the link UP once the peer is recorded (R125). -/
def State.idleInTraining (s : State) (l : LinkId) (hold : Bool) : State :=
  match (s.link l).control.peer with
  | some p => s.enterUp l p hold
  | none => s

/-- A well-formed symbol that reaches an ALIGNED receiver in TRAINING (Table 4-2). -/
def State.symbolInTraining (s : State) (l : LinkId) : SymbolKind → State
  | .hello id c y => s.helloInTraining l id c y
  | .idle _ _ hold => s.idleInTraining l hold
  | .nak _ | .frameStart _ _ _ | .data _ | .malformed => s

/-- A well-formed symbol that reaches an ALIGNED receiver in UP or DRAINING (Table 4-2): any symbol but DATA
first damages a frame under assembly (R69). -/
def State.symbolInUp (s : State) (l : LinkId) (payload : Payload) : SymbolKind → State
  | .hello _ _ seenYou =>
    let s := s.modLink l Link.damageAssembly
    if seenYou then s else s.faultLink l .peerRestart
  | .idle ack nextSend hold =>
    let s := s.modLink l Link.damageAssembly
    (s.receiveIdle l ack hold).offerIdle l ack nextSend
  | .nak expected => (s.modLink l Link.damageAssembly).receiveNak l expected
  | .frameStart seq seen count =>
    s.modLink l fun k => (k.damageAssembly).beginFrame seq seen count payload
  | .data p => s.receiveData l p
  | .malformed => s

/-- A well-formed symbol is handled by an ALIGNED receiver in the link state as it stands (R65). -/
def State.alignedSymbol (s : State) (l : LinkId) (payload : Payload) (sym : SymbolKind) : State :=
  match s.linkState l with
  | .training => s.symbolInTraining l sym
  | .up | .draining => s.symbolInUp l payload sym
  | .disabled | .hunting | .fault => s

/-- A malformed symbol at an ALIGNED receiver damages a frame under assembly, and the fourth in a row is line
loss (R64, R69). -/
def State.malformedSymbol (s : State) (l : LinkId) : State :=
  let s := s.modLink l Link.damageAssembly
  if 3 ≤ (s.link l).rx.malformedRun then s.lineLoss l
  else s.modLink l fun k => { k with rx := { k.rx with malformedRun := k.rx.malformedRun + 1 } }

/-- A symbol arrives in HUNT (R62): an IDLE or HELLO raises the hunt run, the third in a row aligns the receiver
and is then handled as an aligned symbol; any other symbol sets the run to 0. -/
def State.huntSymbol (s : State) (l : LinkId) (payload : Payload) (sym : SymbolKind) : State :=
  if sym.aligns then
    if 2 ≤ (s.link l).rx.huntRun then (s.modLink l Link.align).alignedSymbol l payload sym
    else s.modLink l fun k => { k with rx := { k.rx with huntRun := k.rx.huntRun + 1 } }
  else s.modLink l fun k => { k with rx := { k.rx with huntRun := 0 } }

/-- A symbol arrives at a receiver that examines the line (R61): a well-formed one restarts the silence timer
and, while ALIGNED, ends a run of malformed ones (R63, R64). -/
def State.receiveSymbol (s : State) (l : LinkId) (sym : Symbol) : State :=
  let kind := decodeSymbol sym
  let s := if kind = .malformed then s else s.modLink l Link.restartSilence
  match (s.link l).rx.alignment with
  | .hunt => s.huntSymbol l (sym.extractLsb' 0 16) kind
  | .aligned =>
    if kind = .malformed then s.malformedSymbol l
    else
      (s.modLink l fun k => { k with rx := { k.rx with malformedRun := 0 } }).alignedSymbol l
        (sym.extractLsb' 0 16) kind

/-! ## Commands -/

/-- SYMBOL_ARRIVAL (R61): examined in NORMAL mode while the link is HUNTING, TRAINING, UP or DRAINING; any other
arrival changes nothing. -/
def execSymbolArrival (l : LinkId) (sym : Symbol) (s : State) : Host.Outcome State Fault Refusal :=
  s.happening (s.link l).examines (·.receiveSymbol l sym)

/-- The silence limit runs out (R63): in HUNT the hunt run is 0 and the timer starts again; ALIGNED, line loss. -/
def State.silenceExpiry (s : State) (l : LinkId) : State :=
  match (s.link l).rx.alignment with
  | .hunt => s.modLink l fun k => Link.restartSilence { k with rx := { k.rx with huntRun := 0 } }
  | .aligned => s.lineLoss l

/-- SILENCE_TIMER_EXPIRY: the silence timer of a receiver that examines the line has run out (R63, log entry 3). -/
def execSilenceTimerExpiry (l : LinkId) (s : State) : Host.Outcome State Fault Refusal :=
  s.happening ((s.link l).examines && (s.link l).rx.silenceTimer.hasRunOut) (·.silenceExpiry l)

end Sys2Proof.Machine
end

