-- ==== Sys2Proof/Machine/Operands.lean ====
section
/-! DEFINITION. The operand forms of the management requests: the coded fields of R166, and which raw
fields a request may carry (R3, R119, R156). `none` is a value outside the field's range. -/

namespace Sys2Proof.Machine

/-- A window index, 0 to 15 (R3). -/
def indexOf (b : Byte) : Option Index :=
  if h : b.toNat < 16 then some ⟨b.toNat, h⟩ else none

/-- A link value: 0 A, 1 B (R166). -/
def linkOf (b : Byte) : Option LinkId :=
  match b.toNat with
  | 0 => some .a
  | 1 => some .b
  | _ => none

/-- A direction: 0 EXPORT, 1 IMPORT, 2 SHARED (R166). -/
def directionOf (b : Byte) : Option Direction :=
  match b.toNat with
  | 0 => some .exports
  | 1 => some .imports
  | 2 => some .shared
  | _ => none

/-- A write policy: 0 PASS, 1 DROP, 2 FAULT (R166). -/
def policyOf (b : Byte) : Option WritePolicy :=
  match b.toNat with
  | 0 => some .pass
  | 1 => some .drop
  | 2 => some .fault
  | _ => none

/-- A link mode: 0 NORMAL, 1 LOOP (R166). -/
def modeOf (b : Byte) : Option LinkMode :=
  match b.toNat with
  | 0 => some .normal
  | 1 => some .loop
  | _ => none

/-- A line rate: 0, 1 or 2 for 31.25, 62.5 or 125 Mbit/s (R166). -/
def lineRateOf (b : Byte) : Option LineRate :=
  match b.toNat with
  | 0 => some .slow
  | 1 => some .medium
  | 2 => some .fast
  | _ => none

/-- A frame class: the number 8 or 16 (R166). -/
def frameClassOf (b : Byte) : Option FrameClass :=
  match b.toNat with
  | 8 => some .eight
  | 16 => some .sixteen
  | _ => none

/-- A number in the range `lo` to `hi`, both included. -/
def numberIn (lo hi n : Nat) : Option Nat :=
  if lo ≤ n ∧ n ≤ hi then some n else none

/-- A tag, 0 to 63 (R3). -/
def tagOf (b : Byte) : Option Tag :=
  if b.toNat ≤ 63 then some (b.setWidth 6) else none

/-- Does a window of this direction have an export side (Table 1-2)? -/
def Direction.hasExport : Direction → Bool
  | .exports | .shared => true
  | .imports => false

/-- Does a window of this direction have an import side (Table 1-2)? -/
def Direction.hasImport : Direction → Bool
  | .imports | .shared => true
  | .exports => false

/-- The write policy an entry records: the request's value for IMPORT, and otherwise absent, the request's
value not checked (R2). `none` is an illegal value. -/
def recordedPolicy (d : Direction) (raw : Byte) : Option (Option WritePolicy) :=
  match d with
  | .imports => (policyOf raw).map some
  | .exports | .shared => some none

/-- The entry an accepted WINDOW_SET with these fields makes, every field legal (R2, R3, R6); `none` where a
field is not. -/
def windowOf (f : WindowFields) : Option Window := do
  let l ← linkOf f.link
  let d ← directionOf f.direction
  let t ← tagOf f.tag
  let p ← recordedPolicy d f.policy
  let base := f.base.toNat
  let k := f.k.toNat
  let start := f.options.getLsbD 1
  if base % 256 = 0 ∧ k ≤ 14 ∧ base + 256 * 2 ^ k ≤ Config.addressSpace then
    some
      { base, k, link := l, direction := d, tag := t, policy := p,
        coalesce := if d.hasExport then some (f.options.getLsbD 0) else none,
        startInStep := start,
        exportSide := if d.hasExport then some (if start then .inStep else .stale) else none,
        importSide := if d.hasImport then some (if start then .inStep else .stale) else none,
        notice := false }
  else none

/-- The link configuration a LINK_SET request gives (Table 8-3); `none` where a field is outside its
range. -/
def linkConfigOf (f : LinkFields) : Option LinkConfig := do
  let mode ← modeOf f.mode
  let lineRate ← lineRateOf f.lineRate
  let frameClass ← frameClassOf f.frameClass
  let inFlightLimit ← numberIn 1 Config.inFlightCapacity f.inFlightLimit.toNat
  let flushTime ← numberIn 1 1023 f.flushTime.toNat
  let ackTimeout ← numberIn 20 4095 f.ackTimeout.toNat
  let retryLimit ← numberIn 1 15 f.retryLimit.toNat
  let silenceLimit ← numberIn 2 255 f.silenceLimit.toNat
  let trainingTimeout ← numberIn 1 255 f.trainingTimeout.toNat
  let holdMark ← numberIn 1 31 f.holdMark.toNat
  let peerHoldLimit ← numberIn 1 255 f.peerHoldLimit.toNat
  some { mode, lineRate, frameClass, inFlightLimit, flushTime, ackTimeout, retryLimit, silenceLimit,
         trainingTimeout, holdMark, peerHoldLimit }

/-- The part configuration a PART_CONFIG_SET request gives (R156, check 1); `none` where a field is outside
its range. The mask names event kinds alone when its bit 7 is 0 (R166). -/
def partConfigOf (f : PartConfigFields) : Option PartConfig :=
  if f.nodeId = 255 ∨ f.mask.getLsbD 7 then none
  else do
    let holdLimit ← numberIn 1 255 f.holdLimit.toNat
    let applyShare ← numberIn 1 16 f.applyShare.toNat
    let sweepShare ← numberIn 1 64 f.sweepShare.toNat
    some { nodeId := f.nodeId, holdLimit, applyShare, sweepShare, mask := f.mask }

end Sys2Proof.Machine
end

