-- ==== Sys2Proof/Machine/Requests.lean ====
section
/-! DEFINITION. How the management block takes a request and answers it (R153, R154, R155). -/

namespace Sys2Proof.Machine

/-- Can a request be taken: a transaction is selected, is not one to be ignored, and has not had a request
taken (R153, R163)? -/
def State.canTake (s : State) : Bool :=
  match s.spi with
  | .active _ false => !s.inReset
  | _ => false

/-- The transaction in progress has had its request taken (R153). -/
def State.markTaken (s : State) : State :=
  match s.spi with
  | .active out _ => { s with spi := .active out true }
  | _ => s

/-- The response buffer takes the response of the request just taken (R154). -/
def State.respond (s : State) (code : Byte) (status : Status) (data : List Byte) : State :=
  { s.markTaken with response := some { code, status, data } }

/-- A request is taken where it can be; `act` is its effect and its response. Bytes that come when no request
can be taken are ignored (R153). -/
def State.take (s : State) (act : State → State) : Host.Outcome State Fault Refusal :=
  .next (if s.canTake then act s else s)

/-- The answer OK without data. -/
def State.respondOk (s : State) (code : Byte) : State := s.respond code .ok []

/-- A refusal: it changes nothing but the response buffer and carries no data (R155, R166). -/
def State.refuse (s : State) (code : Byte) (r : Reason) : State := s.respond code (.refused r) []

end Sys2Proof.Machine
end

