-- ==== Sys2Proof/Machine/Links.lean ====
section
/-! DEFINITION. The link commands LINK_SET, LINK_ENABLE, LINK_DISABLE, LINK_GET and FLUSH, and the expiry of the
training timer (chapters 2 and 8). -/

namespace Sys2Proof.Machine

/-- A link takes a new configuration, and its hold flag is evaluated against the new hold mark (R119, R120,
R79). -/
def Link.configure (k : Link) (cfg : LinkConfig) : Link := Link.evalHold { k with config := cfg }

/-- LINK_SET: the checks of R119 in order; accepted, every field is replaced. -/
def State.linkSet (s : State) (link : Byte) (f : LinkFields) : State :=
  match linkOf link with
  | none => s.refuse 0x07 .badField
  | some l =>
    if (s.linkState l).running then s.refuse 0x07 .linkNotDisabled
    else
      match linkConfigOf f with
      | none => s.refuse 0x07 .badField
      | some cfg => (s.modLink l (·.configure cfg)).respondOk 0x07

/-- LINK_SET. -/
def execLinkSet (link : Byte) (f : LinkFields) (s : State) : Host.Outcome State Fault Refusal :=
  s.take (·.linkSet link f)

/-- LINK_ENABLE: the checks of R121 in order; accepted, the link enters HUNTING, or UP in LOOP mode. -/
def State.linkEnable (s : State) (link : Byte) : State :=
  match linkOf link with
  | none => s.refuse 0x08 .badField
  | some l =>
    if (s.linkState l).running then s.refuse 0x08 .wrongState
    else if s.config.nodeId = 0 then s.refuse 0x08 .noNodeId
    else
      let s :=
        match (s.link l).config.mode with
        | .normal => s.enterHunting l
        | .loop => s.enterUpLoop l
      (s.respondOk 0x08).finish

/-- LINK_ENABLE. -/
def execLinkEnable (link : Byte) (s : State) : Host.Outcome State Fault Refusal :=
  s.take (·.linkEnable link)

/-- The effect of LINK_DISABLE on a link in its state (R127). -/
def State.disableLink (s : State) (l : LinkId) (force : Bool) : State :=
  match s.linkState l with
  | .disabled => s
  | .hunting | .training => s.enterDown l none
  | .up => if force then (s.enterDraining l).enterDown l none else s.enterDraining l
  | .draining => if force then s.enterDown l none else s
  | .fault => s.enterDown l none

/-- LINK_DISABLE: a FORCE byte of 0 means no, any other value yes (R127, R166). -/
def State.linkDisable (s : State) (link force : Byte) : State :=
  match linkOf link with
  | none => s.refuse 0x09 .badField
  | some l => ((s.disableLink l (decide (force ≠ 0))).respondOk 0x09).finish

/-- LINK_DISABLE. -/
def execLinkDisable (link force : Byte) (s : State) : Host.Outcome State Fault Refusal :=
  s.take (·.linkDisable link force)

/-- LINK_GET: the items of Table 8-6 as they stand (R132). -/
def State.linkGet (s : State) (link : Byte) : State :=
  match linkOf link with
  | none => s.refuse 0x0A .badField
  | some l => s.respond 0x0A .ok (s.link l).bytes

/-- LINK_GET. -/
def execLinkGet (link : Byte) (s : State) : Host.Outcome State Fault Refusal :=
  s.take (·.linkGet link)

/-- FLUSH: on an UP or DRAINING link it sets flush due (R29). -/
def State.flush (s : State) (link : Byte) : State :=
  match linkOf link with
  | none => s.refuse 0x0B .badField
  | some l =>
    if (s.linkState l).carrying then (s.setFlushDue l).respondOk 0x0B else s.refuse 0x0B .wrongState

/-- FLUSH. -/
def execFlush (link : Byte) (s : State) : Host.Outcome State Fault Refusal :=
  s.take (·.flush link)

/-- Is the link HUNTING or TRAINING, the states the training timer limits (R122)? -/
def LinkState.trains : LinkState → Bool
  | .hunting | .training => true
  | .disabled | .up | .draining | .fault => false

/-- TRAINING_TIMER_EXPIRY: the training timer of a HUNTING or TRAINING link has run out, and the link enters
FAULT with TRAIN_TIMEOUT (R122, log entry 3). -/
def execTrainingTimerExpiry (l : LinkId) (s : State) : Host.Outcome State Fault Refusal :=
  s.happening ((s.linkState l).trains && (s.link l).control.trainingTimer.hasRunOut) (·.faultLink l .trainTimeout)

end Sys2Proof.Machine
end

