-- ==== Sys2Proof/Decode.lean ====
section
/-! DEFINITION. What the wires spell. The bytes of the management port spell requests (R153, R166): `takeRequest`
reads them and `requestBytes` writes them, both from Table 12-4. spec/opcode_table.json gives its rows no bits, so a
word spells a command only as the bytes of a request (log entry 25). -/

namespace Sys2Proof

/-- The bytes the request with this command code needs, counting the command byte; `none` where the code
names no command (R166, Table 12-4). -/
def requestLength (code : Byte) : Option Nat :=
  match code.toNat with
  | 0x00 => some 1
  | 0x01 => some 1
  | 0x02 => some 6
  | 0x03 => some 1
  | 0x04 => some 12
  | 0x05 => some 2
  | 0x06 => some 2
  | 0x07 => some 15
  | 0x08 => some 2
  | 0x09 => some 3
  | 0x0A => some 2
  | 0x0B => some 2
  | 0x0C => some 2
  | 0x0D => some 2
  | 0x0E => some 1
  | 0x0F => some 1
  | 0x10 => some 1
  | _ => none

/-- The request that the bytes after a command code spell (Table 12-4); multi-byte fields come most
significant byte first. `none` while the request's last byte is not there. Bytes past the last one the
request needs are ignored (R153). -/
def requestOf (code : Byte) (fields : List Byte) : Option Instr :=
  match code.toNat, fields with
  | 0x00, _ => some .nop
  | 0x01, _ => some .partInfo
  | 0x02, n :: h :: a :: w :: m :: _ => some (.partConfigSet ⟨n, h, a, w, m⟩)
  | 0x03, _ => some .partConfigGet
  | 0x04, i :: b3 :: b2 :: b1 :: b0 :: k :: l :: d :: t :: p :: o :: _ =>
    some (.windowSet i ⟨b3 ++ b2 ++ b1 ++ b0, k, l, d, t, p, o⟩)
  | 0x05, i :: _ => some (.windowClear i)
  | 0x06, i :: _ => some (.windowGet i)
  | 0x07, l :: m :: r :: c :: n :: f1 :: f0 :: a1 :: a0 :: y :: s :: t :: h :: p :: _ =>
    some (.linkSet l ⟨m, r, c, n, f1 ++ f0, a1 ++ a0, y, s, t, h, p⟩)
  | 0x08, l :: _ => some (.linkEnable l)
  | 0x09, l :: f :: _ => some (.linkDisable l f)
  | 0x0A, l :: _ => some (.linkGet l)
  | 0x0B, l :: _ => some (.flush l)
  | 0x0C, i :: _ => some (.sweepStart i)
  | 0x0D, i :: _ => some (.sweepAbort i)
  | 0x0E, _ => some .eventPop
  | 0x0F, _ => some .eventClear
  | 0x10, _ => some .softReset
  | _, _ => if 0x11 ≤ code.toNat then some (.badCommand code) else none

/-- The request taken from the complete bytes a transaction has clocked in, if its last byte is among
them (R153). -/
def takeRequest : List Byte → Option Instr
  | [] => none
  | code :: fields => requestOf code fields

/-- The first `n` bytes of a word, the least significant first. -/
def wordBytes : Nat → Nat → List Byte
  | 0, _ => []
  | n + 1, w => BitVec.ofNat 8 w :: wordBytes n (w / 256)

/-- The command a word of this many bits spells: the request that its complete bytes spell, the first byte the least
significant. An incomplete byte is ignored, and bytes short of the request's last one spell none, as on the wires
(R153, R154, R166). -/
def decodeTableWord (nbits w : Nat) : Option Instr := takeRequest (wordBytes (nbits / 8) w)

/-- The bytes of a field of two bytes, most significant first (R166). -/
def bytes16 (v : BitVec 16) : List Byte := [v.extractLsb' 8 8, v.extractLsb' 0 8]

/-- The bytes of a field of four bytes, most significant first (R166). -/
def bytes32 (v : BitVec 32) : List Byte :=
  [v.extractLsb' 24 8, v.extractLsb' 16 8, v.extractLsb' 8 8, v.extractLsb' 0 8]

/-- The command code of a request (Table 12-4); `none` for a command that is no request of the management
port. -/
def commandCode : Instr → Option Byte
  | .nop => some 0x00
  | .partInfo => some 0x01
  | .partConfigSet _ => some 0x02
  | .partConfigGet => some 0x03
  | .windowSet _ _ => some 0x04
  | .windowClear _ => some 0x05
  | .windowGet _ => some 0x06
  | .linkSet _ _ => some 0x07
  | .linkEnable _ => some 0x08
  | .linkDisable _ _ => some 0x09
  | .linkGet _ => some 0x0A
  | .flush _ => some 0x0B
  | .sweepStart _ => some 0x0C
  | .sweepAbort _ => some 0x0D
  | .eventPop => some 0x0E
  | .eventClear => some 0x0F
  | .softReset => some 0x10
  | .badCommand code => some code
  | _ => none

/-- The field bytes of a request, in the order of Table 12-4. -/
def requestFields : Instr → List Byte
  | .partConfigSet f => [f.nodeId, f.holdLimit, f.applyShare, f.sweepShare, f.mask]
  | .windowSet i f => [i] ++ bytes32 f.base ++ [f.k, f.link, f.direction, f.tag, f.policy, f.options]
  | .windowClear i => [i]
  | .windowGet i => [i]
  | .linkSet l f => [l, f.mode, f.lineRate, f.frameClass, f.inFlightLimit] ++ bytes16 f.flushTime
      ++ bytes16 f.ackTimeout ++ [f.retryLimit, f.silenceLimit, f.trainingTimeout, f.holdMark, f.peerHoldLimit]
  | .linkEnable l => [l]
  | .linkDisable l f => [l, f]
  | .linkGet l => [l]
  | .flush l => [l]
  | .sweepStart i => [i]
  | .sweepAbort i => [i]
  | _ => []

/-- The bytes of a request on the management port; `none` for a command that is no request of it. -/
def requestBytes (i : Instr) : Option (List Byte) :=
  (commandCode i).map fun code => code :: requestFields i

end Sys2Proof
end

