-- ==== Sys2Proof/Machine/Management.lean ====
section
/-! DEFINITION. The part configuration, the event queue and the resets (chapter 11). -/

namespace Sys2Proof.Machine

/-! ## Requests without an owner elsewhere -/

/-- NOP: taken, it leaves the response buffer as it is (R154). -/
def execNop (s : State) : Host.Outcome State Fault Refusal := s.take State.markTaken

/-- A code that names no command is answered with REFUSED (BAD_COMMAND) (R153, R155). -/
def State.badCommand (s : State) (code : Byte) : State :=
  if (requestLength code).isNone then s.refuse code .badCommand else s

/-- BAD_COMMAND. -/
def execBadCommand (code : Byte) (s : State) : Host.Outcome State Fault Refusal := s.take (·.badCommand code)

/-! ## Part configuration and identity -/

/-- PART_INFO: the fixed identity and capacities (R157). -/
def State.partInfo (s : State) : State := s.respond 0x01 .ok partInfoBytes

/-- PART_INFO. -/
def execPartInfo (s : State) : Host.Outcome State Fault Refusal := s.take State.partInfo

/-- PART_CONFIG_GET: the five fields as they stand (R157). -/
def State.partConfigGet (s : State) : State := s.respond 0x03 .ok s.config.bytes

/-- PART_CONFIG_GET. -/
def execPartConfigGet (s : State) : Host.Outcome State Fault Refusal := s.take State.partConfigGet

/-- PART_CONFIG_SET: the checks of R156 in order; accepted, every field is replaced and INTN follows the new mask
(R161). -/
def State.partConfigSet (s : State) (f : PartConfigFields) : State :=
  match partConfigOf f with
  | none => s.refuse 0x02 .badField
  | some cfg =>
    if cfg.nodeId ≠ s.config.nodeId ∧ ((s.linkState .a).running ∨ (s.linkState .b).running) then
      s.refuse 0x02 .wrongState
    else ({ s with config := cfg }.respondOk 0x02).driveIntn

/-- PART_CONFIG_SET. -/
def execPartConfigSet (f : PartConfigFields) (s : State) : Host.Outcome State Fault Refusal :=
  s.take (·.partConfigSet f)

/-! ## Events -/

/-- EVENT_POP: the oldest entry is removed and returned with the entries left and the overflow flag; from an
empty queue, EMPTY (R160). -/
def State.eventPop (s : State) : State :=
  match s.events with
  | [] => s.respond 0x0E .ok ([0, flagByte s.overflow] ++ emptyEventBytes)
  | e :: rest =>
    ({ s with events := rest }.respond 0x0E .ok ([byteOf rest.length, flagByte s.overflow] ++ e.bytes)).driveIntn

/-- EVENT_POP. -/
def execEventPop (s : State) : Host.Outcome State Fault Refusal := s.take State.eventPop

/-- EVENT_CLEAR: the queue is emptied and the overflow flag cleared (R160). -/
def State.eventClear (s : State) : State := ({ s with events := [], overflow := false }.respondOk 0x0F).driveIntn

/-- EVENT_CLEAR. -/
def execEventClear (s : State) : Host.Outcome State Fault Refusal := s.take State.eventClear

/-! ## Resets -/

/-- The soft-reset values of every block (R162): every side STALE and every notice cleared (R16), both links at
their reset values with their configuration kept (R133), the arbiter's counts and pointers (R152), the
held access reclassified (R145), the event queue emptied. The part configuration and an outstanding memory
transaction are kept. -/
def State.resetBlocks (s : State) : State :=
  let s := s.modWindows Window.allStale
  let s := (s.modLink .a fun k => .reset k.config).modLink .b fun k => .reset k.config
  { s.softResetHost with applyPointer := .a, sweepPointer := .a, events := [], overflow := false }

/-- SOFT_RESET: the soft-reset values, and the response OK; INTN is released with the event queue (R162). -/
def State.softReset (s : State) : State := (s.resetBlocks.respondOk 0x10).driveIntn

/-- SOFT_RESET: taken like any request; the response buffer holds OK for it (R162). -/
def execSoftReset (s : State) : Host.Outcome State Fault Refusal := s.take (·.softReset)

/-- HARDWARE_RESET: every block and every configuration field at its hardware-reset value (R17, R37, R58, R76,
R89, R105, R117, R133, R146, R152, R163). A memory transaction outstanding keeps the port busy, owned by
nobody (R152); a transaction selected on the management port is ignored in full (R163). The queue of waiting
commands is not the part's and is kept. -/
def execHardwareReset (s : State) : Host.Outcome State Fault Refusal :=
  .next
    { State.reset with
      pending := s.pending
      inReset := true
      port := s.port.map fun t => { t with owner := .nobody }
      spi :=
        match s.spi with
        | .idle => .idle
        | .ignored | .active _ _ => .ignored }

/-- RESET_END: hardware reset ends (R163). -/
def execResetEnd (s : State) : Host.Outcome State Fault Refusal := .next { s with inReset := false }

end Sys2Proof.Machine
end

