-- ==== Sys2Proof/Machine/Sweeps.lean ====
section
/-! DEFINITION. The sweep commands SWEEP_START and SWEEP_ABORT, and the queuing of SWEEP_OPEN and SWEEP_CLOSE
(chapter 7). -/

namespace Sys2Proof.Machine

/-- The window an engine in this phase sweeps, while a slot of the capture queue is free for its marker (R26). -/
def State.markerWindow (s : State) (l : LinkId) (phase : SweepPhase) : Option (Index × Window) :=
  match (s.link l).sweep.active with
  | some sw =>
    if sw.phase = phase ∧ (s.link l).hasSlot then (s.window sw.window).map fun w => (sw.window, w) else none
  | none => none

/-- In OPENING with a free slot, the engine queues SWEEP_OPEN and enters READING at offset 0 (R108, R26);
otherwise it waits. -/
def State.queueOpen (s : State) (l : LinkId) : State :=
  match s.markerWindow l .opening with
  | some (i, w) =>
    s.modLink l fun k =>
      { k.enqueue (.record (.sweepOpen w.tag)) with
        sweep := { k.sweep with active := some { phase := .reading, window := i, next := 0 } } }
  | none => s

/-- In CLOSING with a free slot, the engine queues SWEEP_CLOSE, the export side becomes IN_STEP, WINDOW_IN_STEP
is raised and the engine returns to IDLE (R112, R26); otherwise it waits. -/
def State.queueClose (s : State) (l : LinkId) : State :=
  match s.markerWindow l .closing with
  | some (i, w) =>
    let s := s.modLink l fun k =>
      { k.enqueue (.record (.sweepClose w.tag)) with sweep := { k.sweep with active := none } }
    (s.modWindow i (·.withExport .inStep)).raise (.windowInStep i .exportSide)
  | none => s

/-- A held host write to a window whose sweep starts, in CLAIMING as plain, becomes capturing (R107, R139). -/
def State.holdBecomesCapturing (s : State) (i : Index) : State :=
  let isWrite := s.host.access.any fun acc => decide (acc.kind ≠ .read)
  let onWindow := s.hostTarget.any fun t => decide (t.1 = i)
  if s.host.phase = .claiming ∧ s.host.handling = some .plain ∧ isWrite ∧ onWindow then
    { s with host := { s.host with handling := some .capturing } }
  else s

/-- An accepted SWEEP_START (R107): the export side becomes SWEEPING and the engine enters OPENING; where a slot
is free, SWEEP_OPEN is queued in the same happening (R108). -/
def State.startSweep (s : State) (i : Index) (w : Window) : State :=
  let s := s.modWindow i (·.withExport .sweeping)
  let s := s.modLink w.link fun k =>
    { k with sweep := { k.sweep with active := some { phase := .opening, window := i, next := 0 } } }
  (s.queueOpen w.link).holdBecomesCapturing i

/-- SWEEP_START: the checks of Table 7-2 in order (R107). -/
def State.sweepStart (s : State) (index : Byte) : State :=
  match indexOf index with
  | none => s.refuse 0x0C .badIndex
  | some i =>
    match s.window i with
    | none => s.refuse 0x0C .badIndex
    | some w =>
      if !w.direction.hasExport then s.refuse 0x0C .wrongState
      else if s.linkState w.link ≠ .up then s.refuse 0x0C .wrongState
      else if (s.link w.link).sweep.active.isSome then s.refuse 0x0C .busy
      else if w.exportSide = some .sweeping then s.refuse 0x0C .busy
      else ((s.startSweep i w).respondOk 0x0C).finish

/-- SWEEP_START. -/
def execSweepStart (index : Byte) (s : State) : Host.Outcome State Fault Refusal :=
  s.take (·.sweepStart index)

/-- SWEEP_ABORT: refused unless the sweep engine of the window's link is active for the window; otherwise the
sweep is aborted with cause COMMAND (R114). -/
def State.sweepAbort (s : State) (index : Byte) : State :=
  match indexOf index with
  | none => s.refuse 0x0D .badIndex
  | some i =>
    match s.window i with
    | none => s.refuse 0x0D .badIndex
    | some w =>
      if (s.link w.link).sweep.active.any fun sw => decide (sw.window = i) then
        ((s.abortSweep w.link .command).respondOk 0x0D).finish
      else s.refuse 0x0D .wrongState

/-- SWEEP_ABORT. -/
def execSweepAbort (index : Byte) (s : State) : Host.Outcome State Fault Refusal :=
  s.take (·.sweepAbort index)

/-- SWEEP_OPEN_QUEUED: an engine in OPENING queues SWEEP_OPEN where a slot is free (R108). -/
def execSweepOpenQueued (l : LinkId) (s : State) : Host.Outcome State Fault Refusal :=
  s.happening (s.markerWindow l .opening).isSome (·.queueOpen l)

/-- SWEEP_CLOSE_QUEUED: an engine in CLOSING queues SWEEP_CLOSE where a slot is free (R112). -/
def execSweepCloseQueued (l : LinkId) (s : State) : Host.Outcome State Fault Refusal :=
  s.happening (s.markerWindow l .closing).isSome (·.queueClose l)

end Sys2Proof.Machine
end

