-- ==== Sys2Proof/Machine/Windows.lean ====
section
/-! DEFINITION. The window commands: WINDOW_SET, WINDOW_CLEAR, WINDOW_GET (chapter 1). -/

namespace Sys2Proof.Machine

/-- Does the window's region share a byte with the region of a valid entry (R4)? -/
def State.overlapsAny (s : State) (w : Window) : Bool :=
  allIndices.any fun i => (s.window i).any (·.overlaps w)

/-- Is the window's tag already exported, or already imported, on its link by a valid entry, for a side the
window has (R5)? -/
def State.tagInUse (s : State) (w : Window) : Bool :=
  allIndices.any fun i => (s.window i).any fun v =>
    decide (v.link = w.link) && decide (v.tag = w.tag) &&
    ((v.direction.hasExport && w.direction.hasExport) || (v.direction.hasImport && w.direction.hasImport))

/-- WINDOW_SET: the checks of Table 1-3 in order; accepted, the entry becomes valid (R3 to R6). -/
def State.windowSet (s : State) (index : Byte) (f : WindowFields) : State :=
  match indexOf index with
  | none => s.refuse 0x04 .badIndex
  | some i =>
    if (s.window i).isSome then s.refuse 0x04 .notOff
    else
      match windowOf f with
      | none => s.refuse 0x04 .badField
      | some w =>
        if s.overlapsAny w then s.refuse 0x04 .overlap
        else if s.tagInUse w then s.refuse 0x04 .tagInUse
        else (s.setWindow i (some w)).respondOk 0x04

/-- WINDOW_SET. -/
def execWindowSet (index : Byte) (f : WindowFields) (s : State) : Host.Outcome State Fault Refusal :=
  s.take (·.windowSet index f)

/-- The outstanding apply write decided against a window that is cleared finds no window at its completion
(R8). -/
def ApplyWrite.forget (i : Index) : ApplyWrite → ApplyWrite
  | .forWindow j => if j = i then .windowCleared else .forWindow j
  | .none => .none
  | .windowCleared => .windowCleared

/-- A valid entry is cleared (R7): its active sweep is aborted with WINDOW_CLEARED, the entry becomes OFF, the
access in progress forgets it, its records are purged from the apply queue of its link, and its pending
entries are removed. -/
def State.clearWindow (s : State) (i : Index) (w : Window) : State :=
  let sweeping := (s.link w.link).sweep.active.any fun sw => decide (sw.window = i)
  let s := if sweeping then s.abortSweep w.link .windowCleared else s
  let s := (s.setWindow i none).forgetWindow i
  let s := s.modLink w.link fun k =>
    { k with
      apply := { k.apply with outstanding := k.apply.outstanding.forget i }
      conflict := if w.isShared then k.conflict.dropTag w.tag else k.conflict }
  if w.direction.hasImport then s.purgeApply w.link w.tag else s

/-- WINDOW_CLEAR: of an OFF entry, no effect; of a valid one, as one happening, all that R7 lists. R7 calls
SWEEP_ABORTED the only event of a clear, and R128 completes a drain at the first happening with no notice owed: where
the notice of the cleared window was all that held up a drain, the link enters DISABLED in this happening and
LINK_DISABLED is raised (the model's choice, log entry 10). -/
def State.windowClear (s : State) (index : Byte) : State :=
  match indexOf index with
  | none => s.refuse 0x05 .badIndex
  | some i =>
    match s.window i with
    | none => s.respondOk 0x05
    | some w => ((s.clearWindow i w).respondOk 0x05).finish

/-- WINDOW_CLEAR. -/
def execWindowClear (index : Byte) (s : State) : Host.Outcome State Fault Refusal :=
  s.take (·.windowClear index)

/-- WINDOW_GET: the content of an entry as it stands (R9). -/
def State.windowGet (s : State) (index : Byte) : State :=
  match indexOf index with
  | none => s.refuse 0x06 .badIndex
  | some i => s.respond 0x06 .ok (windowBytes (s.window i))

/-- WINDOW_GET. -/
def execWindowGet (index : Byte) (s : State) : Host.Outcome State Fault Refusal :=
  s.take (·.windowGet index)

end Sys2Proof.Machine
end

