-- ==== Sys2Proof/Machine/Transactions.lean ====
section
/-! DEFINITION. Transactions on the management port (R153, R154): their begin and end, and the request that the bytes
of a transaction spell. -/

namespace Sys2Proof.Machine

/-- TRANSACTION_BEGIN: the response buffer as it stands becomes the content shifted out (R154). A transaction
that begins while hardware reset lasts is ignored (R163). -/
def execTransactionBegin (s : State) : Host.Outcome State Fault Refusal :=
  .next
    (match s.spi with
     | .idle => { s with spi := if s.inReset then .ignored else .active s.response false }
     | .ignored | .active _ _ => s)

/-- The effect of taking the request that a command byte and its fields spell, at the block that owns it (R153, R166,
Table 12-4); a command that is no request has none. -/
def State.request (s : State) : Instr → State
  | .nop => s.markTaken
  | .partInfo => s.partInfo
  | .partConfigSet f => s.partConfigSet f
  | .partConfigGet => s.partConfigGet
  | .windowSet index f => s.windowSet index f
  | .windowClear index => s.windowClear index
  | .windowGet index => s.windowGet index
  | .linkSet link f => s.linkSet link f
  | .linkEnable link => s.linkEnable link
  | .linkDisable link force => s.linkDisable link force
  | .linkGet link => s.linkGet link
  | .flush link => s.flush link
  | .sweepStart index => s.sweepStart index
  | .sweepAbort index => s.sweepAbort index
  | .eventPop => s.eventPop
  | .eventClear => s.eventClear
  | .softReset => s.softReset
  | .badCommand code => s.badCommand code
  | _ => s

/-- What the bytes of a transaction whose request has not been taken leave at its end: the request they spell is taken
(R153, R166; that this comes at the end is the model's choice, log entry 25); a request short of its last byte
leaves REFUSED (SHORT), naming the code received; no complete byte changes nothing (R154). -/
def State.endUntaken (s : State) (clocked : List Byte) : State :=
  match clocked with
  | [] => s
  | code :: _ =>
    match takeRequest clocked with
    | some c => if s.canTake then s.request c else s
    | none => { s with response := some { code, status := .refused .short, data := [] } }

/-- TRANSACTION_END: select is released (R154). A request taken by its own command stays as it is; one not taken yet
ends as its bytes say. -/
def execTransactionEnd (clocked : List Byte) (s : State) : Host.Outcome State Fault Refusal :=
  .next
    (match s.spi with
     | .active _ false => { s.endUntaken clocked with spi := .idle }
     | .idle | .ignored | .active _ true => { s with spi := .idle })

end Sys2Proof.Machine
end

