-- ==== Sys2Proof/Machine/Dispatch.lean ====
section
/-! DEFINITION. The meaning of every command: one arm per constructor, one call per arm. -/

namespace Sys2Proof.Machine

/-- The effect of a command on everything but the queue of waiting commands. -/
def exec (i : Instr) (s : State) : Host.Outcome State Fault Refusal :=
  match i with
  | .nop => Sys2Proof.Machine.execNop s
  | .partInfo => Sys2Proof.Machine.execPartInfo s
  | .partConfigSet f => Sys2Proof.Machine.execPartConfigSet f s
  | .partConfigGet => Sys2Proof.Machine.execPartConfigGet s
  | .windowSet index f => Sys2Proof.Machine.execWindowSet index f s
  | .windowClear index => Sys2Proof.Machine.execWindowClear index s
  | .windowGet index => Sys2Proof.Machine.execWindowGet index s
  | .linkSet link f => Sys2Proof.Machine.execLinkSet link f s
  | .linkEnable link => Sys2Proof.Machine.execLinkEnable link s
  | .linkDisable link force => Sys2Proof.Machine.execLinkDisable link force s
  | .linkGet link => Sys2Proof.Machine.execLinkGet link s
  | .flush link => Sys2Proof.Machine.execFlush link s
  | .sweepStart index => Sys2Proof.Machine.execSweepStart index s
  | .sweepAbort index => Sys2Proof.Machine.execSweepAbort index s
  | .eventPop => Sys2Proof.Machine.execEventPop s
  | .eventClear => Sys2Proof.Machine.execEventClear s
  | .softReset => Sys2Proof.Machine.execSoftReset s
  | .badCommand code => Sys2Proof.Machine.execBadCommand code s
  | .transactionBegin => Sys2Proof.Machine.execTransactionBegin s
  | .transactionEnd clocked => Sys2Proof.Machine.execTransactionEnd clocked s
  | .hardwareReset => Sys2Proof.Machine.execHardwareReset s
  | .hostAccessArrival acc => Sys2Proof.Machine.execHostAccessArrival acc s
  | .arbiterChoice => Sys2Proof.Machine.execArbiterChoice s
  | .memoryCompletion status => Sys2Proof.Machine.execMemoryCompletion status s
  | .controlRecordDecision l => Sys2Proof.Machine.execControlRecordDecision l s
  | .frameBuild l => Sys2Proof.Machine.execFrameBuild l s
  | .sweepOpenQueued l => Sys2Proof.Machine.execSweepOpenQueued l s
  | .sweepCloseQueued l => Sys2Proof.Machine.execSweepCloseQueued l s
  | .flushTimerExpiry l => Sys2Proof.Machine.execFlushTimerExpiry l s
  | .transmitChoicePoint l => Sys2Proof.Machine.execTransmitChoicePoint l s
  | .frameEnd l => Sys2Proof.Machine.execFrameEnd l s
  | .ackTimerExpiry l => Sys2Proof.Machine.execAckTimerExpiry l s
  | .peerHoldLimitExpiry l => Sys2Proof.Machine.execPeerHoldLimitExpiry l s
  | .symbolArrival l sym => Sys2Proof.Machine.execSymbolArrival l sym s
  | .silenceTimerExpiry l => Sys2Proof.Machine.execSilenceTimerExpiry l s
  | .trainingTimerExpiry l => Sys2Proof.Machine.execTrainingTimerExpiry l s
  | .captureHoldExpiry => Sys2Proof.Machine.execCaptureHoldExpiry s
  | .resetEnd => Sys2Proof.Machine.execResetEnd s

end Sys2Proof.Machine
end

