-- ==== Sys2Proof/Machine/Tick.lean ====
section
/-! DEFINITION. One tick of the timebase: what the part does while no command waits. Every timer of the part
counts ticks (00_scope, Conventions), and the table has no row for a tick. -/

namespace Sys2Proof.Machine

/-- The timers of a link one tick later. -/
def Link.tick (k : Link) : Link :=
  { k with
    capture := { k.capture with flushTimer := k.capture.flushTimer.tick }
    tx := { k.tx with ackTimer := k.tx.ackTimer.tick }
    rx := { k.rx with silenceTimer := k.rx.silenceTimer.tick }
    control := { k.control with
      trainingTimer := k.control.trainingTimer.tick, peerHoldTimer := k.control.peerHoldTimer.tick } }

/-- The expiries of a link's timers that the next tick brings about. -/
def Link.expiries (k : Link) (l : LinkId) : List Instr :=
  (if k.capture.flushTimer.runsOut then [.flushTimerExpiry l] else []) ++
  (if k.tx.ackTimer.runsOut then [.ackTimerExpiry l] else []) ++
  (if k.control.peerHoldTimer.runsOut then [.peerHoldLimitExpiry l] else []) ++
  (if k.rx.silenceTimer.runsOut then [.silenceTimerExpiry l] else []) ++
  (if k.control.trainingTimer.runsOut then [.trainingTimerExpiry l] else [])

/-- The expiries that the next tick brings about, in the order the model takes them (DESIGN CHOICE: the spec lets
expiries that come together be taken in either order). -/
def State.expiries (s : State) : List Instr :=
  s.a.expiries .a ++ s.b.expiries .b ++ (if s.host.holdTimer.runsOut then [.captureHoldExpiry] else [])

/-- One tick of the timebase: every running timer counts down, and the expiry of each timer that runs out joins
the queue of waiting commands. While hardware reset lasts every timer is stopped, and nothing changes. -/
def State.tick (s : State) : State :=
  if s.inReset then s
  else
    { s with
      pending := s.pending ++ s.expiries
      a := s.a.tick
      b := s.b.tick
      host := { s.host with holdTimer := s.host.holdTimer.tick } }

end Sys2Proof.Machine
end

