-- ==== Sys2Proof/Safety.lean ====
section
/-! DEFINITION. What counts as a safe run: the laws the manual says the part keeps in every state, each as a
predicate of one state, in the terms the statements use. -/

namespace Sys2Proof.Machine

/-! ## Capacities -/

/-- No queue or table of a link holds more than it has room for, and the retransmit list no more than the
in-flight limit (R20, R43, R77, R92); a link that is neither UP nor DRAINING has an empty list (R57). -/
structure Link.WithinCapacity (k : Link) : Prop where
  capture : k.capture.queue.length ≤ Config.captureCapacity
  apply : k.apply.queue.length ≤ Config.applyCapacity
  pending : k.conflict.table.length ≤ Config.pendingCapacity
  inFlight : k.tx.retransmit.length ≤ k.config.inFlightLimit
  limit : k.config.inFlightLimit ≤ Config.inFlightCapacity
  emptyList : k.control.state.carrying = false → k.tx.retransmit = []

/-- Every queue and table of the part is within its capacity (R20, R43, R77, R92, R158). -/
structure State.WithinCapacity (s : State) : Prop where
  a : s.a.WithinCapacity
  b : s.b.WithinCapacity
  events : s.events.length ≤ Config.eventCapacity

/-! ## INTN -/

/-- INTN is asserted exactly while the event queue holds an event of a kind enabled in the interrupt mask or the
overflow flag is set (R161). -/
def State.IntnExact (s : State) : Prop := s.intn = s.intnAsserted

/-! ## Retransmit list -/

/-- The frames carry consecutive sequence numbers from this one on, modulo 64 (R43). -/
def framesFrom : Seq → List Frame → Prop
  | _, [] => True
  | q, f :: fs => f.seq = q ∧ framesFrom (q + 1) fs

/-- The frames of the list have consecutive sequence numbers from oldest on, and next-send equals oldest plus the
list's length, modulo 64; in NORMAL mode the frames marked sent stand together at its head (R43); a link that is
neither UP nor DRAINING has an empty list (R57). -/
structure Link.SequenceLaw (k : Link) : Prop where
  consecutive : framesFrom k.tx.oldest k.tx.retransmit
  nextSend : k.tx.nextSend = k.tx.oldest + BitVec.ofNat 6 k.tx.retransmit.length
  sentFirst : k.config.mode = .normal → anySent (k.tx.retransmit.dropWhile (·.sent)) = false
  emptyList : k.control.state.carrying = false → k.tx.retransmit = []

/-- Both links keep the sequence law (R43). -/
structure State.SequenceLaw (s : State) : Prop where
  a : s.a.SequenceLaw
  b : s.b.SequenceLaw

/-! ## Ack timer -/

/-- In NORMAL mode the ack timer runs while the list holds a sent frame and the peer hold is clear, is paused while
it holds one and the peer hold is set, and is stopped while it holds none (R49); in LOOP mode it is stopped
(R56). A link that is neither UP nor DRAINING has the peer hold clear and its timer stopped (R53, R55). -/
structure Link.AckTimerLaw (k : Link) : Prop where
  loop : k.config.mode = .loop → k.tx.ackTimer = .stopped
  noneSent : anySent k.tx.retransmit = false → k.tx.ackTimer = .stopped
  running : k.config.mode = .normal → anySent k.tx.retransmit = true → k.tx.peerHold = false →
    ∃ n, k.tx.ackTimer = .running n
  paused : k.config.mode = .normal → anySent k.tx.retransmit = true → k.tx.peerHold = true →
    ∃ n, k.tx.ackTimer = .paused n
  emptyList : k.control.state.carrying = false → k.tx.retransmit = []
  noHold : k.control.state.carrying = false → k.tx.peerHold = false ∧ k.control.peerHoldTimer = .stopped

/-- Both links keep the ack-timer law (R49). -/
structure State.AckTimerLaw (s : State) : Prop where
  a : s.a.AckTimerLaw
  b : s.b.AckTimerLaw

/-! ## Window table -/

/-- The fields of a valid entry are legal, and its options and sides are those of its direction (R2, R3,
Table 1-2); the stale-notice flag is clear unless it has an export side (Table 1-1). -/
structure Window.Legal (w : Window) : Prop where
  base : w.base % 256 = 0
  size : w.k ≤ 14
  region : w.base + w.size ≤ Config.addressSpace
  exportSide : w.exportSide.isSome = w.direction.hasExport
  importSide : w.importSide.isSome = w.direction.hasImport
  coalesce : w.coalesce.isSome = w.direction.hasExport
  policy : w.policy.isSome = !w.direction.hasExport
  notice : w.notice = true → w.direction.hasExport = true

/-- Every valid entry is legal, no two valid windows overlap, and on one link no tag is exported by two valid
windows nor imported by two valid windows (R4, R5). -/
structure State.TableLaw (s : State) : Prop where
  legal : ∀ i, ∀ w ∈ s.window i, w.Legal
  disjoint : ∀ i j, i ≠ j → ∀ v ∈ s.window i, ∀ w ∈ s.window j, v.overlaps w = false
  exportTags : ∀ i j, i ≠ j → ∀ v ∈ s.window i, ∀ w ∈ s.window j, v.link = w.link → v.tag = w.tag →
    (v.direction.hasExport && w.direction.hasExport) = false
  importTags : ∀ i j, i ≠ j → ∀ v ∈ s.window i, ∀ w ∈ s.window j, v.link = w.link → v.tag = w.tag →
    (v.direction.hasImport && w.direction.hasImport) = false

/-! ## Sweeps -/

/-- A window's export side is SWEEPING exactly while the sweep engine of its link is active for that window
(R106); an active engine's link is UP and its window is a valid window of that link (R107, R113). -/
structure State.SweepLaw (s : State) : Prop where
  sweeping : ∀ i, ∀ w ∈ s.window i,
    (w.exportSide = some .sweeping ↔ (s.link w.link).sweep.active.map ActiveSweep.window = some i)
  active : ∀ l, ∀ sw ∈ (s.link l).sweep.active,
    s.linkState l = .up ∧ (s.window sw.window).map Window.link = some l

/-! ## Placeholders -/

/-- A capture queue holds at most one placeholder, and while it holds one a read of its link's sweep engine is
outstanding at the memory port (R19); none is while hardware reset lasts (R117). -/
structure State.PlaceholderLaw (s : State) : Prop where
  atMostOne : ∀ l, ((s.link l).capture.queue.filter CaptureEntry.isPlaceholder).length ≤ 1
  outstanding : ∀ l, (s.link l).capture.queue.any CaptureEntry.isPlaceholder = true →
    (s.link l).sweep.read ≠ .none
  atPort : ∀ l, (s.link l).sweep.read ≠ .none → s.port.map PortTransaction.owner = some (.sweep l)
  inReset : s.inReset = true → ∀ l, (s.link l).sweep.read = .none

/-! ## Conflict unit -/

/-- The conflict unit's laws: the table is empty at JUNIOR and SELF rank, and no two entries name the same word
(R92); an entry with a frame number has one that is not before the horizon (R100), and none has one at UNKNOWN
rank (R103); the rank is UNKNOWN exactly while the link is neither UP nor DRAINING (R91); at SENIOR rank next-send is
at most 24 ahead of the horizon (R102). -/
structure Link.ConflictLaw (k : Link) : Prop where
  juniorEmpty : k.control.rank = .junior ∨ k.control.rank = .self → k.conflict.table = []
  distinct : (k.conflict.table.map fun e => (e.tag, e.offset)).Nodup
  notBefore : ∀ e ∈ k.conflict.table, e.retiredAt k.conflict.horizon = false
  unnumbered : k.control.rank = .unknown → ∀ e ∈ k.conflict.table, e.frame = none
  ranked : k.control.state.carrying = true ↔ k.control.rank ≠ .unknown
  distance : k.control.rank = .senior → (k.tx.nextSend - k.conflict.horizon).toNat ≤ Config.stallDistance

/-- Both links keep the conflict unit's laws (R92, R100, R102, R103). -/
structure State.ConflictLaw (s : State) : Prop where
  a : s.a.ConflictLaw
  b : s.b.ConflictLaw

/-- Is this a word of the window an entry holds (R2)? -/
def State.IsWordOf (s : State) (i : Index) (o : Offset) : Prop := ∃ w ∈ s.window i, o.toNat < w.words

/-- Every word offset the part keeps names a word of a valid window: the access in progress (R10), each active sweep
(Table 7-1), and each pending-write entry, whose window is a valid SHARED window on its link (R92). -/
structure State.WordLaw (s : State) : Prop where
  host : ∀ i o, s.host.classification = some (.window i o) → s.IsWordOf i o
  sweep : ∀ l, ∀ sw ∈ (s.link l).sweep.active, s.IsWordOf sw.window sw.next
  pending : ∀ l, ∀ e ∈ (s.link l).conflict.table, ∃ i, ∃ w ∈ s.window i,
    w.link = l ∧ w.isShared = true ∧ w.tag = e.tag ∧ e.offset.toNat < w.words

/-! ## Apply queue -/

/-- The hold flag of the apply queue is the one its occupancy asks for: set at or above the hold mark, clear at or
below the release level, either between (R79). -/
structure Link.HoldLaw (k : Link) : Prop where
  set : k.config.holdMark ≤ k.apply.queue.length → k.apply.holdFlag = true
  clear : k.apply.queue.length ≤ k.config.holdMark / 2 → k.apply.holdFlag = false
  mark : 1 ≤ k.config.holdMark

/-- Both links keep the hold-flag law (R79). -/
structure State.HoldLaw (s : State) : Prop where
  a : s.a.HoldLaw
  b : s.b.HoldLaw

/-! ## Host port -/

/-- The number of drain points that rest on the apply queues. -/
def State.drainPoints (s : State) : Nat :=
  (s.a.apply.queue.filter (·.drainPoint)).length + (s.b.apply.queue.filter (·.drainPoint)).length

/-- The host port's laws: it holds an access exactly while it is not IDLE (R134); it is IN_MEMORY exactly while it
owns the outstanding transaction (R147); one drain point exists while it is in WAIT_DRAIN and none otherwise, and it
rests on a WRITE record for the access's word in the apply queue of its window's link (R85, R86); while hardware reset lasts the port is IDLE (R146). -/
structure State.HostLaw (s : State) : Prop where
  access : s.host.access.isSome = !decide (s.host.phase = .idle)
  inMemory : s.host.phase = .inMemory ↔ s.port.map PortTransaction.owner = some .host
  drainPoint : s.drainPoints = if s.host.phase = .waitDrain then 1 else 0
  drainWord : ∀ l, ∀ e ∈ (s.link l).apply.queue, e.drainPoint = true → ∃ i o, ∃ w ∈ s.window i,
    s.host.classification = some (.window i o) ∧ w.link = l ∧ w.importSide.isSome = true ∧
    e.record.isWriteOf w.tag o = true
  inReset : s.inReset = true → s.host.phase = .idle

/-! ## Receiver -/

/-- The receiver's laws: it is ALIGNED only while it examines the line and its link is past HUNTING (R62, R64); a
frame is under assembly only while the link is UP or DRAINING (R67); where it does not examine the line it is in
HUNT with its silence timer stopped (R61). -/
structure Link.ReceiverLaw (k : Link) : Prop where
  aligned : k.rx.alignment = .aligned →
    k.config.mode = .normal ∧ (k.control.state = .training ∨ k.control.state.carrying = true)
  assembly : k.rx.assembly.isSome = true → k.rx.alignment = .aligned ∧ k.control.state.carrying = true
  unexamined : k.examines = false → k.rx.alignment = .hunt ∧ k.rx.silenceTimer = .stopped

/-- Both links keep the receiver's laws (R61). -/
structure State.ReceiverLaw (s : State) : Prop where
  a : s.a.ReceiverLaw
  b : s.b.ReceiverLaw

/-! ## Configuration -/

/-- Every field of a link's configuration is in its range (Table 8-3). -/
structure LinkConfig.InRange (c : LinkConfig) : Prop where
  inFlightLimit : 1 ≤ c.inFlightLimit ∧ c.inFlightLimit ≤ 8
  flushTime : 1 ≤ c.flushTime ∧ c.flushTime ≤ 1023
  ackTimeout : 20 ≤ c.ackTimeout ∧ c.ackTimeout ≤ 4095
  retryLimit : 1 ≤ c.retryLimit ∧ c.retryLimit ≤ 15
  silenceLimit : 2 ≤ c.silenceLimit ∧ c.silenceLimit ≤ 255
  trainingTimeout : 1 ≤ c.trainingTimeout ∧ c.trainingTimeout ≤ 255
  holdMark : 1 ≤ c.holdMark ∧ c.holdMark ≤ 31
  peerHoldLimit : 1 ≤ c.peerHoldLimit ∧ c.peerHoldLimit ≤ 255

/-- Every field of the part configuration is in its range (Table 11-3). -/
structure PartConfig.InRange (c : PartConfig) : Prop where
  nodeId : c.nodeId.toNat ≤ 254
  holdLimit : 1 ≤ c.holdLimit ∧ c.holdLimit ≤ 255
  applyShare : 1 ≤ c.applyShare ∧ c.applyShare ≤ 16
  sweepShare : 1 ≤ c.sweepShare ∧ c.sweepShare ≤ 64
  mask : c.mask.getLsbD 7 = false

/-- Both configurations are in range (R119, R156). -/
structure State.ConfigLaw (s : State) : Prop where
  part : s.config.InRange
  a : s.a.config.InRange
  b : s.b.config.InRange

end Sys2Proof.Machine

namespace Sys2Proof

open Machine

/-! ## The fields of requests -/

/-- A WINDOW_SET description whose every value is legal (R3). -/
structure WindowFields.Legal (f : WindowFields) : Prop where
  base : f.base.toNat % 256 = 0
  size : f.k.toNat ≤ 14
  region : f.base.toNat + 256 * 2 ^ f.k.toNat ≤ 67108864
  link : f.link.toNat ≤ 1
  direction : f.direction.toNat ≤ 2
  tag : f.tag.toNat ≤ 63
  policy : f.direction.toNat = 1 → f.policy.toNat ≤ 2

/-- The region of the description shares a byte with the region of a valid entry (R4). -/
def WindowFields.Overlaps (f : WindowFields) (s : State) : Prop :=
  ∃ i, ∃ v ∈ s.window i, ∃ x, (v.base ≤ x ∧ x < v.base + v.size) ∧
    f.base.toNat ≤ x ∧ x < f.base.toNat + 256 * 2 ^ f.k.toNat

/-- The tag of the description is already exported, or already imported, on its link by a valid entry, for a side the
new window has (R5). -/
def WindowFields.TagInUse (f : WindowFields) (s : State) : Prop :=
  ∃ i, ∃ v ∈ s.window i, linkByte v.link = f.link ∧ v.tag.toNat = f.tag.toNat ∧
    ((f.direction ≠ 1 ∧ v.direction ≠ .imports) ∨ (f.direction ≠ 0 ∧ v.direction ≠ .exports))

/-- The entry that an accepted description makes (R2, R6, Table 1-1). -/
structure WindowFields.Makes (f : WindowFields) (w : Window) : Prop where
  base : w.base = f.base.toNat
  k : w.k = f.k.toNat
  link : linkByte w.link = f.link
  direction : w.direction.toByte = f.direction
  tag : w.tag.toNat = f.tag.toNat
  policy : w.policy.map WritePolicy.toByte = if f.direction = 1 then some f.policy else none
  coalesce : w.coalesce = if f.direction = 1 then none else some (f.options.getLsbD 0)
  startInStep : w.startInStep = f.options.getLsbD 1
  exportSide : w.exportSide =
    if f.direction = 1 then none else some (if f.options.getLsbD 1 then .inStep else .stale)
  importSide : w.importSide =
    if f.direction = 0 then none else some (if f.options.getLsbD 1 then .inStep else .stale)
  notice : w.notice = false

/-- A LINK_SET request whose every field after the link is in its range (Table 8-3). -/
structure LinkFields.Legal (f : LinkFields) : Prop where
  mode : f.mode.toNat ≤ 1
  lineRate : f.lineRate.toNat ≤ 2
  frameClass : f.frameClass = 8 ∨ f.frameClass = 16
  inFlightLimit : 1 ≤ f.inFlightLimit.toNat ∧ f.inFlightLimit.toNat ≤ 8
  flushTime : 1 ≤ f.flushTime.toNat ∧ f.flushTime.toNat ≤ 1023
  ackTimeout : 20 ≤ f.ackTimeout.toNat ∧ f.ackTimeout.toNat ≤ 4095
  retryLimit : 1 ≤ f.retryLimit.toNat ∧ f.retryLimit.toNat ≤ 15
  silenceLimit : 2 ≤ f.silenceLimit.toNat
  trainingTimeout : 1 ≤ f.trainingTimeout.toNat
  holdMark : 1 ≤ f.holdMark.toNat ∧ f.holdMark.toNat ≤ 31
  peerHoldLimit : 1 ≤ f.peerHoldLimit.toNat

/-- The configuration that an accepted LINK_SET gives (R119). -/
structure LinkFields.Gives (f : LinkFields) (c : LinkConfig) : Prop where
  mode : c.mode.toByte = f.mode
  lineRate : c.lineRate.toByte = f.lineRate
  frameClass : c.frameClass.toByte = f.frameClass
  inFlightLimit : c.inFlightLimit = f.inFlightLimit.toNat
  flushTime : c.flushTime = f.flushTime.toNat
  ackTimeout : c.ackTimeout = f.ackTimeout.toNat
  retryLimit : c.retryLimit = f.retryLimit.toNat
  silenceLimit : c.silenceLimit = f.silenceLimit.toNat
  trainingTimeout : c.trainingTimeout = f.trainingTimeout.toNat
  holdMark : c.holdMark = f.holdMark.toNat
  peerHoldLimit : c.peerHoldLimit = f.peerHoldLimit.toNat

end Sys2Proof

namespace Sys2Proof.Machine

/-! ## The terms of the statements -/

/-- A request can be taken: hardware reset does not last, and a transaction is selected that shifts out `out` and
has not had a request taken (R153). -/
structure State.Taking (s : State) (out : Option Response) : Prop where
  running : s.inReset = false
  selected : s.spi = .active out false

/-- The state after a request was answered, with nothing else changed: its transaction has had its request taken
(R153), and the response buffer holds this response (R154). -/
def State.answered (s : State) (out : Option Response) (code : Byte) (status : Status) (data : List Byte) : State :=
  { s with spi := .active out true, response := some { code, status, data } }

/-- The happening changed nothing of the part but one link, the window table, the event queue and its overflow
flag. -/
structure State.SameButLink (s u : State) (l : LinkId) : Prop where
  other : u.link (otherLink l) = s.link (otherLink l)
  pending : u.pending = s.pending
  inReset : u.inReset = s.inReset
  config : u.config = s.config
  host : u.host = s.host
  port : u.port = s.port
  applyPointer : u.applyPointer = s.applyPointer
  sweepPointer : u.sweepPointer = s.sweepPointer
  response : u.response = s.response
  spi : u.spi = s.spi

/-- The event-queue state after these events were offered in this order (R158). -/
def State.offered (s : State) (es : List Event) : State := es.foldl State.raise s

/-- The events of a link's entry to DISABLED (no reason) or FAULT, in their order (R130). -/
def State.downEvents (s : State) (l : LinkId) (reason : Option FaultReason) : List Event :=
  ((s.link l).sweep.active.map fun sw => Event.sweepAborted sw.window .linkLeftUp).toList ++
  [match reason with
   | some r => .linkFault l r
   | none => .linkDisabled l]

/-- From `s` to `u` the link entered DISABLED (no reason) or FAULT: link control, and the reaction of every block of
Table 8-5 but the host port (R130). -/
structure State.WentDown (s u : State) (l : LinkId) (reason : Option FaultReason) : Prop where
  same : s.SameButLink u l
  control : (u.link l).control =
    { state := if reason.isSome then .fault else .disabled, faultReason := reason, peer := (s.link l).control.peer,
      effectiveClass := none, rank := .unknown, trainingTimer := .stopped, peerHoldTimer := .stopped }
  transmitter : (u.link l).tx =
    { retransmit := [], nextSend := 0, oldest := 0, retryCount := 0, peerHold := false, nakRequest := false,
      ackTimer := .stopped, idleSent := false, output := .rest }
  capture : (u.link l).capture = { queue := [], flushTimer := .stopped, flushDue := false }
  receiver : (u.link l).rx =
    { alignment := .hunt, huntRun := 0, malformedRun := 0, silenceTimer := .stopped, assembly := none,
      receiveExpected := 0, nakSent := false }
  conflict : (u.link l).conflict = { table := [], horizon := 0 }
  applyQueue : (u.link l).apply.queue =
    ((s.link l).apply.queue.filter fun e => !e.record.isMarker).map fun e => { e with seen := none }
  holdFlag : (u.link l).apply.holdFlag =
    if (s.link l).config.holdMark ≤ (u.link l).apply.queue.length then true
    else if (u.link l).apply.queue.length ≤ (s.link l).config.holdMark / 2 then false
    else (s.link l).apply.holdFlag
  outstanding : (u.link l).apply.outstanding = (s.link l).apply.outstanding
  sweep : (u.link l).sweep.active = none
  read : (u.link l).sweep.read =
    if (s.link l).sweep.active.isSome ∧ (s.link l).sweep.read = .current then .orphan else (s.link l).sweep.read
  kept : (u.link l).config = (s.link l).config ∧ (u.link l).patience = (s.link l).patience
  windows : ∀ i, u.window i = (s.window i).map fun w =>
    if w.link = l then
      { w with exportSide := w.exportSide.map fun _ => .stale, importSide := w.importSide.map fun _ => .stale,
               notice := false }
    else w
  events : u.events = (s.offered (s.downEvents l reason)).events
  overflow : u.overflow = (s.offered (s.downEvents l reason)).overflow

/-- An access that the master presents with a lane to move arrives at the idle host port, and its word lies in the
region of a valid window (R10, R135). -/
structure State.ArrivesAt (s : State) (acc : Access) (i : Index) (w : Window) : Prop where
  running : s.inReset = false
  idle : s.host.phase = .idle
  lanes : acc.mask ≠ 0
  window : s.window i = some w
  above : w.base ≤ 4 * acc.addr.toNat
  below : 4 * acc.addr.toNat < w.base + w.size

/-- The state in which the access in progress stands in this phase with this classification and handling, and its hold
timer has not started (Table 9-1). -/
def State.hostAt (s : State) (acc : Access) (c : Classification) (phase : HostPhase) (h : Option Handling) : State :=
  { s with host :=
    { phase, access := some acc, classification := some c, handling := h, captured := false, holdTimer := .stopped,
      completion := none } }

/-- The state in which the access has completed to the master: the host port is IDLE (R136, R143). -/
def State.hostEnds (s : State) (fault : Bool) (data : Option Word) : State :=
  { s with host :=
    { phase := .idle, access := none, classification := none, handling := none, captured := false,
      holdTimer := .stopped, completion := some { fault, data } } }

/-- The state in which the access in progress stands in CLAIMING as plain, its hold timer stopped. -/
def State.hostPlain (s : State) : State :=
  { s with host := { s.host with phase := .claiming, handling := some .plain, holdTimer := .stopped } }

/-- From `s` to `u` the valid window `w` at index `i` lost its export side to a local cause (R12): IN_STEP goes STALE
with WINDOW_STALE, and owes a notice on a HUNTING, TRAINING or UP link; the sweep of a SWEEPING side is aborted with the
cause (R113); a STALE side, and a window without an export side, do not change. -/
structure State.ExportLost (s u : State) (i : Index) (w : Window) (cause : Cause) : Prop where
  inStepNotice : w.exportSide = some .inStep →
    (s.linkState w.link = .hunting ∨ s.linkState w.link = .training ∨ s.linkState w.link = .up) →
    u = { ((s.modLink w.link fun k => { k with capture := { k.capture with
            flushDue := k.capture.flushDue || !w.notice } }).offered [.windowStale i .exportSide cause]) with
          windows := s.windows.set i (some { w with exportSide := some .stale, notice := true }) }
  inStepSilent : w.exportSide = some .inStep →
    (s.linkState w.link = .draining ∨ s.linkState w.link = .disabled ∨ s.linkState w.link = .fault) →
    u = { (s.offered [.windowStale i .exportSide cause]) with
          windows := s.windows.set i (some { w with exportSide := some .stale }) }
  sweeping : w.exportSide = some .sweeping →
    u = { ((s.modLink w.link fun k => { k with
            capture := { k.capture with flushDue := k.capture.flushDue || !w.notice }
            sweep := { active := none, read := if k.sweep.read = .current then .orphan else k.sweep.read }
            }).offered [.sweepAborted i cause]) with
          windows := s.windows.set i (some { w with exportSide := some .stale, notice := true }) }
  otherwise : (w.exportSide = some .stale ∨ w.exportSide = none) → u = s

/-- From `s` to `u` the host write in progress acted on the export side of the valid window `w` at index `i`
(Table 9-3), the room test of a capturing write aside. -/
structure State.WriteActed (s u : State) (i : Index) (w : Window) : Prop where
  capturing : (w.exportSide = some .inStep ∨ w.exportSide = some .sweeping) →
    (s.linkState w.link = .hunting ∨ s.linkState w.link = .training ∨ s.linkState w.link = .up) →
    u = { s with host := { s.host with phase := .claiming, handling := some .capturing, holdTimer := .stopped } }
  draining : w.exportSide = some .inStep → s.linkState w.link = .draining →
    u = { (s.hostPlain.offered [.windowStale i .exportSide .linkDraining]) with
          windows := s.windows.set i (some { w with exportSide := some .stale }) }
  down : w.exportSide = some .inStep → (s.linkState w.link = .disabled ∨ s.linkState w.link = .fault) →
    u = { (s.hostPlain.offered [.windowStale i .exportSide .linkDown]) with
          windows := s.windows.set i (some { w with exportSide := some .stale }) }
  stale : w.exportSide = some .stale → u = s.hostPlain

/-- From `s` to `u` the access in progress, classified against the valid window `w` at index `i`, proceeded past its
drain check (R136, R138). -/
structure State.Proceeded (s u : State) (acc : Access) (i : Index) (w : Window) : Prop where
  read : acc.kind = .read → u = s.hostPlain
  pass : w.direction = .imports → ∀ d, acc.kind = .write d → w.policy = some .pass → u = s.hostPlain
  drop : w.direction = .imports → ∀ d, acc.kind = .write d → w.policy = some .drop → u = s.hostEnds false none
  fault : w.direction = .imports → ∀ d, acc.kind = .write d → w.policy = some .fault → u = s.hostEnds true none
  write : w.direction ≠ .imports → ∀ d, acc.kind = .write d → s.WriteActed u i w

/-- Does the apply queue of the link hold a WRITE record for this word (R85)? -/
def Link.HasWriteFor (k : Link) (t : Tag) (o : Offset) : Prop :=
  ∃ m d seen drain, (⟨.write t o m d, seen, drain⟩ : ApplyEntry) ∈ k.apply.queue

/-- Pending room for a capture claim (R22). -/
def Link.HasPendingRoom (k : Link) (w : Window) (o : Offset) : Prop :=
  w.direction ≠ .shared ∨ k.control.rank = .junior ∨ k.control.rank = .self ∨
    (∃ e ∈ k.conflict.table, e.tag = w.tag ∧ e.offset = o) ∨ k.conflict.table.length < 64

/-- Is this link the one to take, of the links with such a claim: the only one, or the one the pointer names (R151)? -/
def preferred (pointer : LinkId) (claims : LinkId → Prop) (l : LinkId) : Prop :=
  claims l ∧ (l = pointer ∨ ¬ claims (otherLink l))

/-- The hold flag at an occupancy, from its value before (R79). -/
def Link.flagAt (k : Link) (occupancy : Nat) : Bool :=
  if k.config.holdMark ≤ occupancy then true
  else if occupancy ≤ k.config.holdMark / 2 then false else k.apply.holdFlag

/-- The peer-hold-limit timer when the hold flag of the link's own apply queue becomes `b`: in LOOP mode, in UP and
DRAINING, it follows the flag (R55). -/
def Link.loopTimer (k : Link) (b : Bool) : Timer :=
  if k.config.mode = .loop ∧ (k.control.state = .up ∨ k.control.state = .draining) then
    (if k.apply.holdFlag = b then k.control.peerHoldTimer
     else if b then .running (k.config.peerHoldLimit * 1000) else .stopped)
  else k.control.peerHoldTimer

/-- The conflict unit after this value was offered to the horizon (R97, R100). -/
def Link.horizonAfter (k : Link) (v : Seq) : ConflictUnit :=
  if k.control.rank = .senior ∧ v ≠ k.conflict.horizon ∧
      (v - k.conflict.horizon).toNat ≤ (k.tx.nextSend - k.conflict.horizon).toNat then
    { table := k.conflict.table.filter fun e => !e.frame.any fun f => before f v, horizon := v }
  else k.conflict

/-- The pending-write table after an unfilled placeholder for this word was removed, `queue` being what is left of the
capture queue (R95). -/
def Link.settledTable (k : Link) (t : Tag) (o : Offset) (queue : List CaptureEntry) : List PendingWrite :=
  if k.control.rank = .senior ∧ queue.any (·.isWriteOf t o) = false then
    k.conflict.table.filterMap fun e =>
      if e.tag = t ∧ e.offset = o ∧ e.frame = none then
        (if before (k.tx.nextSend - 1) k.conflict.horizon then none else some { e with frame := some (k.tx.nextSend - 1) })
      else some e
  else k.conflict.table

/-- The conditions of a frame build at effective class `c` (R30). -/
structure State.MayBuild (s : State) (l : LinkId) (c : FrameClass) : Prop where
  state : s.linkState l = .up ∨ s.linkState l = .draining
  hold : (if (s.link l).config.mode = .loop then (s.link l).apply.holdFlag else (s.link l).tx.peerHold) = false
  inFlight : (s.link l).tx.retransmit.length < (s.link l).config.inFlightLimit
  notStalled : (s.link l).control.rank = .senior → ((s.link l).tx.nextSend - (s.link l).conflict.horizon).toNat < 24
  item : (∃ i, ∃ w ∈ s.window i, w.link = l ∧ w.notice = true) ∨
    ∃ r q, (s.link l).capture.queue = CaptureEntry.record r :: q
  due : c.items ≤ ((s.link l).capture.queue.takeWhile fun e => !e.isPlaceholder).length ∨
    (s.link l).capture.flushDue = true ∨ s.linkState l = .draining

/-- A receiver that is ALIGNED on an UP or DRAINING link in NORMAL mode, hardware reset not lasting (R61, R65). -/
structure State.Hears (s : State) (l : LinkId) : Prop where
  running : s.inReset = false
  normal : (s.link l).config.mode = .normal
  state : s.linkState l = .up ∨ s.linkState l = .draining
  aligned : (s.link l).rx.alignment = .aligned

/-- The link after a well-formed symbol other than DATA arrived, before the symbol acts: the silence timer restarted, the
malformed run ended, a frame under assembly damaged with a NAK request under the flag rule (R63, R64, R69, R73). -/
def Link.heard (k : Link) : Link :=
  { k with
    rx := { k.rx with
      silenceTimer := .running k.config.silenceLimit, malformedRun := 0, assembly := none
      nakSent := k.rx.nakSent || k.rx.assembly.isSome }
    tx := { k.tx with nakRequest := k.tx.nakRequest || (k.rx.assembly.isSome && !k.rx.nakSent) } }

/-- The transmitter after an ack removed `gone` from the head of its list and left `rest` (R46, Table 3-4). -/
def Link.acked (k : Link) (gone rest : List Frame) : Transmitter :=
  if gone = [] then k.tx
  else
    { k.tx with
      retransmit := rest
      oldest := (rest.head?.map Frame.seq).getD k.tx.nextSend
      retryCount := 0
      ackTimer :=
        if rest.any Frame.sent = false then .stopped
        else match k.tx.ackTimer with
          | .running _ => .running k.config.ackTimeout
          | .paused _ => .paused k.config.ackTimeout
          | .stopped => .stopped }

/-- An ack value splits the retransmit list into the frames it covers, before it, and the rest (R46). -/
structure Link.AckSplits (k : Link) (a : Seq) (gone rest : List Frame) : Prop where
  list : k.tx.retransmit = gone ++ rest
  covered : ∀ f ∈ gone, before f.seq a = true
  kept : ∀ f ∈ rest.head?, before f.seq a = false

/-- From `s` to `u` a TRAINING link entered UP with this peer and peer hold (R125): rank, effective class, sequence
values, table and horizon, timers, and LINK_UP. -/
def State.CameUp (s u : State) (l : LinkId) (p : Peer) (hold : Bool) : Prop :=
  ∃ rank, (rank = Rank.senior ↔ p.id.toNat < s.config.nodeId.toNat) ∧ (rank = .senior ∨ rank = .junior) ∧
    u = State.raise (s.modLink l fun k => { k with
      control := { k.control with
        state := .up, rank, trainingTimer := .stopped
        effectiveClass := some
          (if k.config.frameClass = .sixteen ∧ p.acceptance = .sixteen then .sixteen else .eight)
        peer := some p
        peerHoldTimer := if hold then .running (k.config.peerHoldLimit * 1000) else k.control.peerHoldTimer }
      tx := { k.tx with
        nextSend := 0, oldest := 0, retryCount := 0, peerHold := hold, ackTimer := .stopped, nakRequest := false,
        idleSent := false }
      rx := { k.rx with receiveExpected := 0, nakSent := false }
      conflict := { table := if rank = .junior then [] else k.conflict.table, horizon := 0 } })
      (.linkUp l p.id rank)

/-- A record as a receiver reads it from its symbols: the data of lanes outside the mask is 0 (R165). -/
def Record.received : Record → Record
  | .write t o m d => .write t o m (d &&& laneBits m)
  | r => r

/-- Run commands one after another; `none` where one does not answer a next state. -/
def runAll : List Instr → State → Option State
  | [], s => some s
  | c :: cs, s =>
    match exec c s with
    | .next t => runAll cs t
    | _ => none

end Sys2Proof.Machine
end

