-- ==== Sys2Proof/WellFormed.lean ====
section
/-! DEFINITION. Which commands are well formed. The operand types fix every width, and a field value a
request may not carry is refused by that request's own rule, so one check remains. -/

namespace Sys2Proof

/-- A BAD_COMMAND carries a code that names no command: 0x11 to 0xFF (R166). Every other command is well
formed whatever its operands. -/
def Instr.wellFormed : Instr → Bool
  | .badCommand code => decide (0x11 ≤ code.toNat)
  | _ => true

end Sys2Proof
end

