-- ==== Sys2Proof/Certificates/Slice0/Obligations.lean ====
section
/-! DEFINITION. The statements for the provers. Where a command is a happening, its statement gives the state `u` its
own rule leaves and concludes `exec … = .next u.finish`: `finish` is what every happening ends with, and
`FinishSettles` says in full what that is. -/

open Sys2Proof Sys2Proof.Machine

/-! ## The step -/

/-- A step with a command waiting is that command's meaning on the state with the queue's rest. The queue is the model's
own (log entry 1). -/
def Obligations.StepRunsFront : Prop :=
  ∀ (c : Instr) (rest : List Instr) (s : State), s.pending = c :: rest → step s = exec c { s with pending := rest }

/-- A step with no command waiting is one tick of the timebase: every running timer counts down to 0, a paused or stopped
one stays, and the queue holds exactly the expiries of the timers that have then run out, each once; nothing else
changes. While hardware reset lasts nothing changes. The tick is the model's choice (log entry 2). -/
def Obligations.StepWithoutCommandTicks : Prop :=
  ∀ s : State, s.pending = [] →
    (s.inReset = true → step s = .next s) ∧
    (s.inReset = false →
      let later (x : Timer) : Timer :=
        match x with
        | .running (n + 1) => .running n
        | y => y
      let ends (x : Timer) : Prop := x = .running 0 ∨ x = .running 1
      ∃ t : State, step s = .next t ∧
        t = { s with pending := t.pending, a := t.a, b := t.b, host := t.host } ∧
        (∀ l, t.link l = { s.link l with
          capture := { (s.link l).capture with flushTimer := later (s.link l).capture.flushTimer }
          tx := { (s.link l).tx with ackTimer := later (s.link l).tx.ackTimer }
          rx := { (s.link l).rx with silenceTimer := later (s.link l).rx.silenceTimer }
          control := { (s.link l).control with
            trainingTimer := later (s.link l).control.trainingTimer
            peerHoldTimer := later (s.link l).control.peerHoldTimer } }) ∧
        t.host = { s.host with holdTimer := later s.host.holdTimer } ∧
        t.pending.Nodup ∧
        (∀ c, c ∈ t.pending ↔
          ((∃ l, c = .flushTimerExpiry l ∧ ends (s.link l).capture.flushTimer) ∨
           (∃ l, c = .ackTimerExpiry l ∧ ends (s.link l).tx.ackTimer) ∨
           (∃ l, c = .silenceTimerExpiry l ∧ ends (s.link l).rx.silenceTimer) ∨
           (∃ l, c = .trainingTimerExpiry l ∧ ends (s.link l).control.trainingTimer) ∨
           (∃ l, c = .peerHoldLimitExpiry l ∧ ends (s.link l).control.peerHoldTimer) ∨
           (c = .captureHoldExpiry ∧ ends s.host.holdTimer))))

/-- What every happening ends with. The configuration, the ports, the pointers and the management port do not change, and
INTN follows the event queue. A link whose drain is complete goes down to DISABLED, link A first, and what is left is
finished in turn. Where no drain is complete, the windows, the events and the overflow flag are kept; a LOOP-mode link
that is UP or DRAINING, with no frame in transmission, its hold flag clear and an unsent frame, starts the oldest such
frame, and every other link is kept; a capturing write held in WAIT_ROOM or CLAIMING is tested for room: with its capture
no longer made it becomes plain in CLAIMING with its timer stopped; eligible, it stands in CLAIMING with its timer
paused; not eligible, in WAIT_ROOM with its timer started from the full hold limit the first time and resumed
afterwards; any other access is kept. That a drain is judged once, here, is the model's reading (log entry 10). -/
def Obligations.FinishSettles : Prop :=
  ∀ s : State,
    let drained (l : LinkId) : Prop :=
      s.linkState l = .draining ∧ (s.link l).capture.queue = [] ∧ (s.link l).tx.retransmit = [] ∧
        ∀ i, ∀ w ∈ s.window i, w.link = l → w.notice = false
    let starts (l : LinkId) : Prop :=
      (s.link l).config.mode = .loop ∧ (s.linkState l = .up ∨ s.linkState l = .draining) ∧
        (s.link l).tx.output = .rest ∧ (s.link l).apply.holdFlag = false
    let tested : Prop := s.host.handling = some .capturing ∧ (s.host.phase = .claiming ∨ s.host.phase = .waitRoom)
    (s.finish.pending = s.pending ∧ s.finish.inReset = s.inReset ∧ s.finish.config = s.config ∧
      s.finish.port = s.port ∧ s.finish.applyPointer = s.applyPointer ∧ s.finish.sweepPointer = s.sweepPointer ∧
      s.finish.response = s.response ∧ s.finish.spi = s.spi ∧ s.finish.intn = s.finish.intnAsserted) ∧
    (∀ l, s.SweepLaw → drained l → (l = .b → ¬ drained .a) →
      ∃ u : State, s.WentDown u l none ∧ s.finish = u.finish) ∧
    (¬ drained .a → ¬ drained .b →
      s.finish.windows = s.windows ∧ s.finish.events = s.events ∧ s.finish.overflow = s.overflow ∧
      (∀ l pre f post, starts l → (s.link l).tx.retransmit = pre ++ f :: post → (∀ g ∈ pre, g.sent = true) →
        f.sent = false → s.finish.link l = { s.link l with tx := { (s.link l).tx with
          retransmit := pre ++ { f with sent := true } :: post, output := .frame { f with sent := true } } }) ∧
      (∀ l, (¬ starts l ∨ ∀ f ∈ (s.link l).tx.retransmit, f.sent = true) → s.finish.link l = s.link l) ∧
      (¬ tested → s.finish.host = s.host) ∧
      (tested → s.hostCaptureMade = false →
        s.finish.host = { s.host with phase := .claiming, handling := some .plain, holdTimer := .stopped }) ∧
      (tested → s.hostCaptureMade = true → s.hostEligible = true →
        s.finish.host = { s.host with
          phase := .claiming
          holdTimer := match s.host.holdTimer with
            | .running n => .paused n
            | t => t }) ∧
      (tested → s.hostCaptureMade = true → s.hostEligible = false →
        s.finish.host = { s.host with
          phase := .waitRoom
          holdTimer := match s.host.holdTimer with
            | .stopped => .running s.config.holdLimit
            | .paused n => .running n
            | .running n => .running n }))

/-! ## Management requests -/

/-- A request that cannot be taken changes nothing: no transaction is selected, or it is ignored, or its request has
been taken, or hardware reset lasts. Taken, NOP leaves the response buffer as it was, and a code above 0x10 is answered
with REFUSED (BAD_COMMAND) and has no other effect. That a request outside a transaction changes nothing is the model's
choice (log entry 4). -/
def Obligations.RequestTakenOnce : Prop :=
  (∀ (c : Instr) (s : State), (commandCode c).isSome = true → s.canTake = false → exec c s = .next s) ∧
  (∀ (s : State) (out : Option Response), s.Taking out → exec .nop s = .next { s with spi := .active out true }) ∧
  (∀ (s : State) (out : Option Response) (code : Byte), s.Taking out → 0x11 ≤ code.toNat →
    exec (.badCommand code) s = .next (s.answered out code (.refused .badCommand) []))

/-- PART_INFO responds OK with the fixed identity and capacities, and PART_CONFIG_GET with the five fields of the part
configuration as they stand; neither changes any state apart from the response buffer. -/
def Obligations.IdentityAndConfigRead : Prop :=
  ∀ (s : State) (out : Option Response), s.Taking out →
    exec .partInfo s = .next (s.answered out 0x01 .ok [0x04, 0x32, 16, 2, 48, 32, 64, 16, 8, 64]) ∧
    exec .partConfigGet s = .next (s.answered out 0x03 .ok
      [s.config.nodeId, BitVec.ofNat 8 s.config.holdLimit, BitVec.ofNat 8 s.config.applyShare,
       BitVec.ofNat 8 s.config.sweepShare, s.config.mask])

/-- PART_CONFIG_SET: the two checks in their order, and accepted, all five fields are replaced and INTN follows the new
mask. -/
def Obligations.PartConfigSetChecks : Prop :=
  ∀ (s : State) (out : Option Response) (f : PartConfigFields), s.Taking out →
    let legal := f.nodeId.toNat ≤ 254 ∧ 1 ≤ f.holdLimit.toNat ∧ (1 ≤ f.applyShare.toNat ∧ f.applyShare.toNat ≤ 16) ∧
      (1 ≤ f.sweepShare.toNat ∧ f.sweepShare.toNat ≤ 64) ∧ f.mask.getLsbD 7 = false
    let frozen := f.nodeId ≠ s.config.nodeId ∧
      ((s.linkState .a).running = true ∨ (s.linkState .b).running = true)
    (¬ legal → exec (.partConfigSet f) s = .next (s.answered out 0x02 (.refused .badField) [])) ∧
    (legal → frozen → exec (.partConfigSet f) s = .next (s.answered out 0x02 (.refused .wrongState) [])) ∧
    (legal → ¬ frozen → exec (.partConfigSet f) s = .next
      { s.answered out 0x02 .ok [] with
        config := { nodeId := f.nodeId, holdLimit := f.holdLimit.toNat, applyShare := f.applyShare.toNat,
                    sweepShare := f.sweepShare.toNat, mask := f.mask }
        intn := s.events.any (fun e => f.mask.getLsbD (e.kindCode - 1)) || s.overflow })

/-- WINDOW_SET: the five checks of Table 1-3 in their order, each refusal changing nothing but the response; accepted,
the entry holds the fields of the description and nothing else changes. -/
def Obligations.WindowSetChecks : Prop :=
  ∀ (s : State) (out : Option Response) (index : Byte) (f : WindowFields), s.Taking out →
    (15 < index.toNat → exec (.windowSet index f) s = .next (s.answered out 0x04 (.refused .badIndex) [])) ∧
    (∀ i : Index, index.toNat = i.val →
      ((s.window i).isSome = true →
        exec (.windowSet index f) s = .next (s.answered out 0x04 (.refused .notOff) [])) ∧
      (s.window i = none →
        (¬ f.Legal → exec (.windowSet index f) s = .next (s.answered out 0x04 (.refused .badField) [])) ∧
        (f.Legal → f.Overlaps s →
          exec (.windowSet index f) s = .next (s.answered out 0x04 (.refused .overlap) [])) ∧
        (f.Legal → ¬ f.Overlaps s → f.TagInUse s →
          exec (.windowSet index f) s = .next (s.answered out 0x04 (.refused .tagInUse) [])) ∧
        (f.Legal → ¬ f.Overlaps s → ¬ f.TagInUse s → ∃ w, f.Makes w ∧
          exec (.windowSet index f) s = .next { s.answered out 0x04 .ok [] with windows := s.windows.set i (some w) })))

/-- WINDOW_GET responds with the bytes of Table 12-5 for the entry as it stands, an OFF entry as valid 0 alone, and LINK_GET
with those for the items of Table 8-6 as they stand, an absent item being 0xFF; neither changes any other state. An
index above 15 is refused with BAD_INDEX, a link value other than A or B with BAD_FIELD. The peer-hold byte of a LOOP
link is the model's reading (log entry 9), and 0 clear, 1 set for the flags of LINK_GET its choice (log entry 26). -/
def Obligations.TableAndLinkRead : Prop :=
  ∀ (s : State) (out : Option Response), s.Taking out →
    let byte (n : Nat) : Byte := BitVec.ofNat 8 n
    let flag (b : Bool) : Byte := if b then 1 else 0
    let frames (c : FrameClass) : Byte :=
      match c with
      | .eight => 8
      | .sixteen => 16
    (∀ index : Byte, 15 < index.toNat →
      exec (.windowGet index) s = .next (s.answered out 0x06 (.refused .badIndex) [])) ∧
    (∀ (index : Byte) (i : Index), index.toNat = i.val →
      (s.window i = none → exec (.windowGet index) s = .next (s.answered out 0x06 .ok [0])) ∧
      (∀ w, s.window i = some w → exec (.windowGet index) s = .next (s.answered out 0x06 .ok
        [1, byte (w.base / 16777216), byte (w.base / 65536), byte (w.base / 256), byte w.base, byte w.k,
         (match w.link with
          | .a => 0
          | .b => 1),
         (match w.direction with
          | .exports => 0
          | .imports => 1
          | .shared => 2),
         w.tag.setWidth 8,
         (match w.policy with
          | none => 0xFF
          | some .pass => 0
          | some .drop => 1
          | some .fault => 2),
         (if w.coalesce = some true then 1 else 0) + (if w.startInStep then 2 else 0),
         (match w.exportSide with
          | none => 0xFF
          | some .inStep => 0
          | some .stale => 1
          | some .sweeping => 2),
         (match w.importSide with
          | none => 0xFF
          | some .inStep => 0
          | some .stale => 1
          | some .filling => 2),
         flag w.notice]))) ∧
    (∀ link : Byte, 1 < link.toNat → exec (.linkGet link) s = .next (s.answered out 0x0A (.refused .badField) [])) ∧
    (∀ l, let k := s.link l
      exec (.linkGet (if l = .a then 0 else 1)) s = .next (s.answered out 0x0A .ok (
        ([(match k.control.state with
          | .disabled => 0
          | .hunting => 1
          | .training => 2
          | .up => 3
          | .draining => 4
          | .fault => 5),
         (match k.control.faultReason with
          | none => 0xFF
          | some .trainTimeout => 1
          | some .idClash => 2
          | some .lineLost => 3
          | some .noProgress => 4
          | some .holdExpired => 5
          | some .peerRestart => 6),
         (match k.control.peer with
          | none => 0xFF
          | some p => p.id),
         (match k.control.peer with
          | none => 0xFF
          | some p => frames p.acceptance),
         (match k.control.effectiveClass with
          | none => 0xFF
          | some c => frames c),
         (match k.control.rank with
          | .unknown => 0
          | .senior => 1
          | .junior => 2
          | .self => 3)] : List Byte) ++
        ([(match k.config.mode with
          | .normal => 0
          | .loop => 1),
         (match k.config.lineRate with
          | .slow => 0
          | .medium => 1
          | .fast => 2),
         frames k.config.frameClass, byte k.config.inFlightLimit,
         byte (k.config.flushTime / 256), byte k.config.flushTime,
         byte (k.config.ackTimeout / 256), byte k.config.ackTimeout, byte k.config.retryLimit,
         byte k.config.silenceLimit, byte k.config.trainingTimeout, byte k.config.holdMark,
         byte k.config.peerHoldLimit] : List Byte) ++
        ([byte k.capture.queue.length, flag k.capture.flushDue,
         byte k.tx.retransmit.length, k.tx.nextSend.setWidth 8, k.tx.oldest.setWidth 8, byte k.tx.retryCount,
         flag (if k.config.mode = .loop ∧ (k.control.state = .up ∨ k.control.state = .draining) then k.apply.holdFlag
           else k.tx.peerHold),
         (match k.rx.alignment with
          | .hunt => 0
          | .aligned => 1),
         k.rx.receiveExpected.setWidth 8, flag k.rx.nakSent,
         byte k.apply.queue.length, flag k.apply.holdFlag, byte k.conflict.table.length,
         k.conflict.horizon.setWidth 8] : List Byte) ++
        ((match k.sweep.active with
         | none => [0, 0xFF, 0xFF, 0xFF, 0xFF]
         | some sw =>
           [(match sw.phase with
             | .opening => 1
             | .reading => 2
             | .closing => 3),
            byte sw.window.val, byte (sw.next.toNat / 65536), byte (sw.next.toNat / 256), byte sw.next.toNat]) : List Byte))))

/-- WINDOW_CLEAR: an index above 15 is refused; an OFF entry is left OFF with OK. Of a valid entry: it becomes OFF and
every other entry is kept; SWEEP_ABORTED (WINDOW_CLEARED) is raised exactly where the sweep engine of its link was
active for it, a current read becoming orphan; of an importing window every record with its tag leaves the apply queue
of its link but an outstanding head, the rest keeping their order; of a SHARED window no pending entry of its tag is
left; a held access to it becomes a plain access to no window in CLAIMING, an access IN_MEMORY and an outstanding
apply write decided against it are marked so that their completions find no window, and any other access is kept; the
hold flag follows the new occupancy, and a new head offers its seen value to the horizon; capture queues, retransmit
lists and the other link's apply queue are kept. The marks are the model's (log entry 15), and what `finish` may raise
where the notice of the window was all that held up a drain is its reading (log entry 10). -/
def Obligations.WindowClearSettles : Prop :=
  ∀ (s : State) (out : Option Response) (index : Byte), s.Taking out → s.TableLaw → s.SweepLaw → s.HostLaw →
    (15 < index.toNat → exec (.windowClear index) s = .next (s.answered out 0x05 (.refused .badIndex) [])) ∧
    (∀ i : Index, index.toNat = i.val →
      (s.window i = none → exec (.windowClear index) s = .next (s.answered out 0x05 .ok [])) ∧
      (∀ w, s.window i = some w → ∃ u : State, exec (.windowClear index) s = .next u.finish ∧
        u.response = some { code := 0x05, status := .ok, data := [] } ∧ u.spi = .active out true ∧
        u.window i = none ∧ (∀ j, j ≠ i → u.window j = s.window j) ∧
        u.events = (s.offered (if (s.link w.link).sweep.active.map ActiveSweep.window = some i
          then [.sweepAborted i .windowCleared] else [])).events ∧
        u.overflow = (s.offered (if (s.link w.link).sweep.active.map ActiveSweep.window = some i
          then [.sweepAborted i .windowCleared] else [])).overflow ∧
        (u.link w.link).sweep = (if (s.link w.link).sweep.active.map ActiveSweep.window = some i then
            { active := none
              read := if (s.link w.link).sweep.read = .current then .orphan else (s.link w.link).sweep.read }
          else (s.link w.link).sweep) ∧
        (u.link w.link).apply.outstanding = (if (s.link w.link).apply.outstanding = .forWindow i then .windowCleared
          else (s.link w.link).apply.outstanding) ∧
        (let occupancy := (u.link w.link).apply.queue.length
         let flag := if w.direction = .exports then (s.link w.link).apply.holdFlag else (s.link w.link).flagAt occupancy
         (u.link w.link).apply.holdFlag = flag ∧
         (u.link w.link).control = { (s.link w.link).control with peerHoldTimer := (s.link w.link).loopTimer flag }) ∧
        (let k : Link := { s.link w.link with conflict :=
           if w.direction = .shared then
             { (s.link w.link).conflict with
               table := (s.link w.link).conflict.table.filter fun e => !decide (e.tag = w.tag) }
           else (s.link w.link).conflict }
         (u.link w.link).conflict =
           if w.direction ≠ .exports ∧ k.apply.outstanding = .none ∧ ∃ e ∈ k.apply.queue.head?, e.record.tag = w.tag then
             (match (u.link w.link).apply.queue.head?.bind ApplyEntry.seen with
              | some v => k.horizonAfter v
              | none => k.conflict)
           else k.conflict) ∧
        (u.link w.link).apply.queue.map ApplyEntry.record =
          (if w.direction = .exports then (s.link w.link).apply.queue
           else if (s.link w.link).apply.outstanding ≠ .none then
             (s.link w.link).apply.queue.take 1 ++
               (s.link w.link).apply.queue.tail.filter fun e => !decide (e.record.tag = w.tag)
           else (s.link w.link).apply.queue.filter fun e => !decide (e.record.tag = w.tag)).map ApplyEntry.record ∧
        (w.direction = .shared → ∀ e ∈ (u.link w.link).conflict.table, e.tag ≠ w.tag) ∧
        (∀ o, s.host.classification = some (.window i o) → s.host.phase.held = true →
          u.host = { s.host with
            phase := .claiming, classification := some .noWindow, handling := some .plain, holdTimer := .stopped }) ∧
        (∀ o, s.host.classification = some (.window i o) → s.host.phase = .inMemory →
          u.host = { s.host with classification := some (.clearedWindow i o) }) ∧
        ((∀ o, s.host.classification ≠ some (.window i o)) → u.host = s.host) ∧
        (∀ l, (u.link l).capture = (s.link l).capture ∧ (u.link l).tx = (s.link l).tx ∧
          (u.link l).rx = (s.link l).rx ∧ (u.link l).config = (s.link l).config ∧
          (u.link l).patience = (s.link l).patience ∧
          (l ≠ w.link → (u.link l).apply.queue.map ApplyEntry.record = (s.link l).apply.queue.map ApplyEntry.record ∧
            (u.link l).conflict = (s.link l).conflict ∧ (u.link l).sweep = (s.link l).sweep ∧
            (u.link l).control = (s.link l).control ∧ (u.link l).apply.holdFlag = (s.link l).apply.holdFlag ∧
            (u.link l).apply.outstanding = (s.link l).apply.outstanding)) ∧
        u.port = s.port ∧ u.config = s.config ∧ u.pending = s.pending))

/-! ## Links -/

/-- LINK_SET: the three checks in their order; accepted, every field is replaced, the hold flag is evaluated against the
new mark, and everything else of the link, its state and fault reason among it, is kept. -/
def Obligations.LinkSetChecks : Prop :=
  ∀ (s : State) (out : Option Response) (link : Byte) (f : LinkFields), s.Taking out →
    (1 < link.toNat → exec (.linkSet link f) s = .next (s.answered out 0x07 (.refused .badField) [])) ∧
    (∀ l, link = linkByte l →
      ((s.linkState l).running = true →
        exec (.linkSet link f) s = .next (s.answered out 0x07 (.refused .linkNotDisabled) [])) ∧
      ((s.linkState l).running = false →
        (¬ f.Legal → exec (.linkSet link f) s = .next (s.answered out 0x07 (.refused .badField) [])) ∧
        (f.Legal → ∃ c, f.Gives c ∧ exec (.linkSet link f) s = .next
          ((s.modLink l fun k => { k with
            config := c
            apply := { k.apply with
              holdFlag := if c.holdMark ≤ k.apply.queue.length then true
                else if k.apply.queue.length ≤ c.holdMark / 2 then false else k.apply.holdFlag } }).answered
            out 0x07 .ok []))))

/-- LINK_ENABLE: the three checks in their order, each refusal changing nothing but the response; accepted in NORMAL
mode, the link enters HUNTING with the training and silence timers at their full values, no peer recorded, and a HELLO
with seen-you clear on its line. -/
def Obligations.LinkEnableHunts : Prop :=
  ∀ (s : State) (out : Option Response) (link : Byte), s.Taking out →
    (1 < link.toNat → exec (.linkEnable link) s = .next (s.answered out 0x08 (.refused .badField) [])) ∧
    (∀ l, link = linkByte l →
      ((s.linkState l).running = true →
        exec (.linkEnable link) s = .next (s.answered out 0x08 (.refused .wrongState) [])) ∧
      ((s.linkState l).running = false → s.config.nodeId = 0 →
        exec (.linkEnable link) s = .next (s.answered out 0x08 (.refused .noNodeId) [])) ∧
      ((s.linkState l).running = false → s.config.nodeId ≠ 0 → (s.link l).config.mode = .normal →
        exec (.linkEnable link) s = .next (State.finish
          ((s.modLink l fun k => { k with
            control := { k.control with
              state := .hunting, faultReason := none, peer := none
              trainingTimer := .running (k.config.trainingTimeout * 1000) }
            rx := { k.rx with alignment := .hunt, huntRun := 0, silenceTimer := .running k.config.silenceLimit }
            tx := { k.tx with
              output := .symbol (helloSymbol s.config.nodeId (decide (k.config.frameClass = .sixteen)) false) } }).answered
            out 0x08 .ok []))))

/-- LINK_ENABLE in LOOP mode: the link enters UP at once at rank SELF with the part's own id as its peer, the effective
class is the configured one, sequence values and horizon are 0, the pending-write table is empty, and LINK_UP is
raised; the peer-hold-limit timer runs where the link's own hold flag is set. -/
def Obligations.LinkEnableLoops : Prop :=
  ∀ (s : State) (out : Option Response) (l : LinkId), s.Taking out → (s.linkState l).running = false →
    s.config.nodeId ≠ 0 → (s.link l).config.mode = .loop →
    exec (.linkEnable (linkByte l)) s = .next (State.finish
      (((s.modLink l fun k => { k with
        control := { k.control with
          state := .up, rank := .self, effectiveClass := some k.config.frameClass, trainingTimer := .stopped
          faultReason := none, peer := some { id := s.config.nodeId, acceptance := k.config.frameClass }
          peerHoldTimer := if k.apply.holdFlag then .running (k.config.peerHoldLimit * 1000) else .stopped }
        tx := { k.tx with
          nextSend := 0, oldest := 0, retryCount := 0, ackTimer := .stopped, nakRequest := false, idleSent := false }
        rx := { k.rx with receiveExpected := 0, nakSent := false }
        conflict := { table := [], horizon := 0 } }).raise (.linkUp l s.config.nodeId .self)).answered
        out 0x08 .ok []))

/-- LINK_DISABLE, by the state it finds and the FORCE byte: DISABLED, and DRAINING without FORCE, do not change; an UP link
without FORCE enters DRAINING, an active sweep being aborted with LINK_LEFT_UP; in every other case the link enters
DISABLED. -/
def Obligations.LinkDisableByState : Prop :=
  ∀ (s : State) (out : Option Response) (link force : Byte), s.Taking out → s.SweepLaw →
    (1 < link.toNat → exec (.linkDisable link force) s = .next (s.answered out 0x09 (.refused .badField) [])) ∧
    (∀ l, link = linkByte l →
      (s.linkState l = .disabled ∨ (s.linkState l = .draining ∧ force = 0) →
        exec (.linkDisable link force) s = .next (State.finish (s.answered out 0x09 .ok []))) ∧
      (s.linkState l = .up → force = 0 → ∃ u : State, exec (.linkDisable link force) s = .next u.finish ∧
        (s.answered out 0x09 .ok []).SameButLink u l ∧
        u.link l = { s.link l with
          control := { (s.link l).control with state := .draining }
          sweep :=
            { active := none
              read := if (s.link l).sweep.active.isSome ∧ (s.link l).sweep.read = .current then .orphan
                else (s.link l).sweep.read } } ∧
        (∀ i, u.window i = (s.window i).map fun w =>
          if (s.link l).sweep.active.map ActiveSweep.window = some i
          then { w with exportSide := w.exportSide.map fun _ => .stale } else w) ∧
        u.events = (s.offered ((s.link l).sweep.active.map fun sw =>
          Event.sweepAborted sw.window .linkLeftUp).toList).events) ∧
      ((s.linkState l = .hunting ∨ s.linkState l = .training ∨ s.linkState l = .fault ∨
          ((s.linkState l = .up ∨ s.linkState l = .draining) ∧ force ≠ 0)) →
        ∃ u : State, exec (.linkDisable link force) s = .next u.finish ∧
          (s.answered out 0x09 .ok []).WentDown u l none))

/-- A DRAINING link whose capture queue and retransmit list are empty and which owes no notice enters DISABLED at the
end of the happening, with LINK_DISABLED raised and its windows STALE; with any of them left it stays DRAINING as it was,
LOOP frame start aside, and where neither link completes no event is raised. That this is judged once, at the end, is
the model's reading (log entry 10). -/
def Obligations.DrainCompletes : Prop :=
  ∀ (s : State) (l : LinkId), s.SweepLaw → s.linkState l = .draining →
    let left (l : LinkId) : Prop :=
      (s.link l).capture.queue ≠ [] ∨ (s.link l).tx.retransmit ≠ [] ∨ ∃ i, ∃ w ∈ s.window i, w.link = l ∧ w.notice = true
    let other := otherLink l
    ((s.link l).capture.queue = [] → (s.link l).tx.retransmit = [] →
      (∀ i, ∀ w ∈ s.window i, w.link = l → w.notice = false) →
      ∃ u : State, s.WentDown u l none ∧ s.finish.link l = u.link l ∧
        (∀ i, ∀ w ∈ s.window i, w.link = l → s.finish.window i = u.window i) ∧
        ((s.linkState other ≠ .draining ∨ left other) →
          s.finish.events = u.events ∧ s.finish.overflow = u.overflow)) ∧
    (left l →
      (s.finish.link l).control = (s.link l).control ∧ (s.finish.link l).capture = (s.link l).capture ∧
      (s.finish.link l).apply = (s.link l).apply ∧ (s.finish.link l).conflict = (s.link l).conflict ∧
      (s.finish.link l).tx.retransmit.length = (s.link l).tx.retransmit.length ∧
      (∀ i, ∀ w ∈ s.window i, w.link = l → s.finish.window i = some w) ∧
      ((s.linkState other ≠ .draining ∨ left other) →
        s.finish.events = s.events ∧ s.finish.overflow = s.overflow))

/-- FLUSH: another link value is refused with BAD_FIELD, a link neither UP nor DRAINING with WRONG_STATE; otherwise it
responds OK and sets flush due, and nothing else changes, the flush timer among it. -/
def Obligations.FlushSetsFlushDue : Prop :=
  ∀ (s : State) (out : Option Response) (link : Byte), s.Taking out →
    (1 < link.toNat → exec (.flush link) s = .next (s.answered out 0x0B (.refused .badField) [])) ∧
    (∀ l, link = linkByte l →
      (s.linkState l ≠ .up → s.linkState l ≠ .draining →
        exec (.flush link) s = .next (s.answered out 0x0B (.refused .wrongState) [])) ∧
      (s.linkState l = .up ∨ s.linkState l = .draining → exec (.flush link) s = .next
        ((s.modLink l fun k => { k with capture := { k.capture with flushDue := true } }).answered out 0x0B .ok [])))

/-- TRAINING_TIMER_EXPIRY on a HUNTING or TRAINING link, the timer run out, puts the link in FAULT with TRAIN_TIMEOUT;
PEER_HOLD_LIMIT_EXPIRY on an UP or DRAINING link, in NORMAL and in LOOP mode, with HOLD_EXPIRED. A timer that has not
run out faults nothing: such an expiry does not happen (log entry 3). -/
def Obligations.LinkTimerExpiryFaults : Prop :=
  ∀ (s : State) (l : LinkId), s.inReset = false → s.SweepLaw →
    ((s.linkState l = .hunting ∨ s.linkState l = .training) → (s.link l).control.trainingTimer = .running 0 →
      ∃ u : State, exec (.trainingTimerExpiry l) s = .next u.finish ∧ s.WentDown u l (some .trainTimeout)) ∧
    ((s.linkState l = .up ∨ s.linkState l = .draining) → (s.link l).control.peerHoldTimer = .running 0 →
      ∃ u : State, exec (.peerHoldLimitExpiry l) s = .next u.finish ∧ s.WentDown u l (some .holdExpired)) ∧
    ((s.link l).control.trainingTimer ≠ .running 0 → exec (.trainingTimerExpiry l) s = .next s) ∧
    ((s.link l).control.peerHoldTimer ≠ .running 0 → exec (.peerHoldLimitExpiry l) s = .next s)

/-! ## Sweeps -/

/-- SWEEP_START: the checks of Table 7-2 in their order, each refusal changing nothing but the response. Accepted, the
export side becomes SWEEPING, and the engine of the window's link enters OPENING at offset 0, or READING with SWEEP_OPEN
queued where a slot is free; a plain write to the window that stands in CLAIMING becomes capturing; every other entry,
the other link, the events and the stale-notice flags are kept. That SWEEP_OPEN is queued here when a slot is free is
the model's reading (log entry 21). -/
def Obligations.SweepStartChecks : Prop :=
  ∀ (s : State) (out : Option Response) (index : Byte), s.Taking out →
    (15 < index.toNat → exec (.sweepStart index) s = .next (s.answered out 0x0C (.refused .badIndex) [])) ∧
    (∀ i : Index, index.toNat = i.val →
      (s.window i = none → exec (.sweepStart index) s = .next (s.answered out 0x0C (.refused .badIndex) [])) ∧
      (∀ w, s.window i = some w →
        ((w.direction = .imports ∨ s.linkState w.link ≠ .up) →
          exec (.sweepStart index) s = .next (s.answered out 0x0C (.refused .wrongState) [])) ∧
        (w.direction ≠ .imports → s.linkState w.link = .up →
          ((s.link w.link).sweep.active.isSome = true ∨ w.exportSide = some .sweeping) →
          exec (.sweepStart index) s = .next (s.answered out 0x0C (.refused .busy) [])) ∧
        (w.direction ≠ .imports → s.linkState w.link = .up → (s.link w.link).sweep.active = none →
          (w.exportSide = some .inStep ∨ w.exportSide = some .stale) →
          ∃ u : State, exec (.sweepStart index) s = .next u.finish ∧
            (∀ j, u.window j = if j = i then some { w with exportSide := some .sweeping } else s.window j) ∧
            u.link w.link =
              (if (s.link w.link).capture.queue.length < 48 then
                { s.link w.link with
                  capture := { (s.link w.link).capture with
                    queue := (s.link w.link).capture.queue ++ [CaptureEntry.record (.sweepOpen w.tag)]
                    flushTimer := if (s.link w.link).capture.queue = [] then
                      .running (s.link w.link).config.flushTime else (s.link w.link).capture.flushTimer }
                  sweep := { (s.link w.link).sweep with active := some { phase := .reading, window := i, next := 0 } } }
              else
                { s.link w.link with
                  sweep := { (s.link w.link).sweep with active := some { phase := .opening, window := i, next := 0 } } }) ∧
            u.link (otherLink w.link) = s.link (otherLink w.link) ∧
            (∀ o d, s.host.phase = .claiming → s.host.handling = some .plain →
              s.host.classification = some (.window i o) → s.host.access.map Access.kind = some (.write d) →
              u.host = { s.host with handling := some .capturing }) ∧
            (s.host.phase ≠ .claiming ∨ s.host.handling ≠ some .plain ∨
              s.host.access.map Access.kind = some .read → u.host = s.host) ∧
            u.events = s.events ∧ u.overflow = s.overflow ∧ u.port = s.port ∧ u.config = s.config ∧
            u.response = some { code := 0x0C, status := .ok, data := [] } ∧ u.spi = .active out true)))

/-- SWEEP_ABORT: an index above 15 or an OFF entry is refused with BAD_INDEX, a window the engine of its link is not
active for with WRONG_STATE; otherwise it responds OK and the sweep is aborted with cause COMMAND: the export side becomes
STALE, the engine returns to IDLE with a current read made orphan, SWEEP_ABORTED is raised, and on an UP link the notice
flag is set, flush due following where it was clear. -/
def Obligations.SweepAbortByCommand : Prop :=
  ∀ (s : State) (out : Option Response) (index : Byte), s.Taking out → s.SweepLaw →
    (15 < index.toNat → exec (.sweepAbort index) s = .next (s.answered out 0x0D (.refused .badIndex) [])) ∧
    (∀ i : Index, index.toNat = i.val →
      (s.window i = none → exec (.sweepAbort index) s = .next (s.answered out 0x0D (.refused .badIndex) [])) ∧
      (∀ w, s.window i = some w →
        ((s.link w.link).sweep.active.map ActiveSweep.window ≠ some i →
          exec (.sweepAbort index) s = .next (s.answered out 0x0D (.refused .wrongState) [])) ∧
        ((s.link w.link).sweep.active.map ActiveSweep.window = some i →
          ∃ u : State, exec (.sweepAbort index) s = .next u.finish ∧
            (s.answered out 0x0D .ok []).SameButLink u w.link ∧
            (∀ j, u.window j = if j = i then some { w with exportSide := some .stale, notice := true }
              else s.window j) ∧
            u.link w.link = { s.link w.link with
              capture := { (s.link w.link).capture with
                flushDue := (s.link w.link).capture.flushDue || !w.notice }
              sweep :=
                { active := none
                  read := if (s.link w.link).sweep.read = .current then .orphan
                    else (s.link w.link).sweep.read } } ∧
            u.events = (s.offered [.sweepAborted i .command]).events ∧
            u.overflow = (s.offered [.sweepAborted i .command]).overflow)))

/-- With a free slot, SWEEP_OPEN_QUEUED in OPENING puts SWEEP_OPEN at the tail of the capture queue and moves the engine
to READING at offset 0, and SWEEP_CLOSE_QUEUED in CLOSING puts SWEEP_CLOSE there, makes the export side IN_STEP, raises
WINDOW_IN_STEP and returns the engine to IDLE; a record that enters an empty queue starts the flush timer. With no slot
free, neither changes anything. That nothing changes without a slot is the model's choice (log entry 4). -/
def Obligations.SweepMarkersQueued : Prop :=
  ∀ (s : State) (l : LinkId) (sw : ActiveSweep) (w : Window), s.inReset = false →
    (s.link l).sweep.active = some sw → s.window sw.window = some w →
    ((s.link l).capture.queue.length < 48 →
      (sw.phase = .opening →
        exec (.sweepOpenQueued l) s = .next (State.finish (s.modLink l fun k => { k with
          capture := { k.capture with
            queue := k.capture.queue ++ [CaptureEntry.record (.sweepOpen w.tag)]
            flushTimer := if k.capture.queue = [] then .running k.config.flushTime else k.capture.flushTimer }
          sweep := { k.sweep with active := some { phase := .reading, window := sw.window, next := 0 } } }))) ∧
      (sw.phase = .closing →
        exec (.sweepCloseQueued l) s = .next (State.finish
          (State.raise { s.modLink l fun k => { k with
              capture := { k.capture with
                queue := k.capture.queue ++ [CaptureEntry.record (.sweepClose w.tag)]
                flushTimer := if k.capture.queue = [] then .running k.config.flushTime else k.capture.flushTimer }
              sweep := { k.sweep with active := none } } with
            windows := s.windows.set sw.window (some { w with exportSide := w.exportSide.map fun _ => .inStep }) }
            (.windowInStep sw.window .exportSide))))) ∧
    (48 ≤ (s.link l).capture.queue.length →
      exec (.sweepOpenQueued l) s = .next s ∧ exec (.sweepCloseQueued l) s = .next s)

/-! ## Events, transactions and resets -/

/-- EVENT_POP removes the oldest entry and returns it with the entries left and the overflow flag, or EMPTY from an empty
queue; it does not change the overflow flag. EVENT_CLEAR empties the queue and clears the flag. INTN follows both. -/
def Obligations.EventPopAndClear : Prop :=
  ∀ (s : State) (out : Option Response), s.Taking out →
    (s.events = [] → exec .eventPop s = .next (s.answered out 0x0E .ok
      ([0, if s.overflow then 1 else 0] ++ [0, 255, 255, 255, 255, 255, 255, 255, 255]))) ∧
    (∀ e rest, s.events = e :: rest → exec .eventPop s = .next
      { s.answered out 0x0E .ok ([BitVec.ofNat 8 rest.length, if s.overflow then 1 else 0] ++ e.bytes) with
        events := rest
        intn := rest.any (fun e => s.config.mask.getLsbD (e.kindCode - 1)) || s.overflow }) ∧
    exec .eventClear s = .next
      { s.answered out 0x0F .ok [] with events := [], overflow := false, intn := false }

/-- The nine bytes in which EVENT_POP returns each kind of event (Table 12-6): kind, link, window, side, tag, peer id, rank,
cause or reason, repeat count, a field the kind does not carry being 0xFF; before them the entries left and the overflow
flag. -/
def Obligations.EventEntryBytes : Prop :=
  ∀ (s : State) (out : Option Response) (e : Event) (rest : List Event), s.Taking out → s.events = e :: rest →
    let reports (entry : List Byte) : Prop :=
      ∃ t : State, exec .eventPop s = .next t ∧ t.response = some
        { code := 0x0E, status := .ok, data := [BitVec.ofNat 8 rest.length, if s.overflow then 1 else 0] ++ entry }
    let link (l : LinkId) : Byte := if l = .a then 0 else 1
    let side (d : Side) : Byte := if d = .exportSide then 0 else 1
    let reason (r : FaultReason) : Byte :=
      match r with
      | .trainTimeout => 1
      | .idClash => 2
      | .lineLost => 3
      | .noProgress => 4
      | .holdExpired => 5
      | .peerRestart => 6
    let cause (c : Cause) : Byte :=
      match c with
      | .captureTimeout => 1
      | .memoryFault => 2
      | .linkDraining => 3
      | .linkDown => 4
      | .peerNotice => 5
      | .applyFault => 6
      | .command => 7
      | .windowCleared => 8
      | .linkLeftUp => 9
      | .unknownTag => 10
      | .offsetRange => 11
    let rank (r : Rank) : Byte :=
      match r with
      | .unknown => 0
      | .senior => 1
      | .junior => 2
      | .self => 3
    (∀ l p r, e = .linkUp l p r → reports [1, link l, 255, 255, 255, p, rank r, 255, 255]) ∧
    (∀ l r, e = .linkFault l r → reports [2, link l, 255, 255, 255, 255, 255, reason r, 255]) ∧
    (∀ l, e = .linkDisabled l → reports [3, link l, 255, 255, 255, 255, 255, 255, 255]) ∧
    (∀ i d c, e = .windowStale i d c →
      reports [4, 255, BitVec.ofNat 8 i.val, side d, 255, 255, 255, cause c, 255]) ∧
    (∀ i d, e = .windowInStep i d → reports [5, 255, BitVec.ofNat 8 i.val, side d, 255, 255, 255, 255, 255]) ∧
    (∀ i c, e = .sweepAborted i c → reports [6, 255, BitVec.ofNat 8 i.val, 255, 255, 255, 255, cause c, 255]) ∧
    (∀ l tag c n, e = .recordDiscarded l tag c n →
      reports [7, link l, 255, 255, tag.setWidth 8, 255, 255, cause c, BitVec.ofNat 8 n])

/-- An event offered to the queue: a RECORD_DISCARDED with the link, tag and cause of the newest entry adds one to that
entry's count, a count at 255 staying there; any other event enters at the tail of a queue with fewer than 16 entries, and
is lost with the overflow flag set where 16 are queued. Nothing but the queue and the flag changes. -/
def Obligations.EventOfferedToQueue : Prop :=
  (∀ (s : State) (q : List Event) (l : LinkId) (t : Tag) (c : Cause) (n m : Nat),
    s.events = q ++ [.recordDiscarded l t c n] →
    s.raise (.recordDiscarded l t c m) = { s with events := q ++ [.recordDiscarded l t c (min (n + 1) 255)] }) ∧
  (∀ (s : State) (e : Event),
    (∀ q l t c n m, e = .recordDiscarded l t c m → s.events ≠ q ++ [.recordDiscarded l t c n]) →
    (s.events.length < 16 → s.raise e = { s with events := s.events ++ [e] }) ∧
    (16 ≤ s.events.length → s.raise e = { s with overflow := true }))

/-- TRANSACTION_BEGIN with no transaction selected: the response buffer as it stands becomes the content shifted out,
and no request has been taken; while hardware reset lasts the transaction is to be ignored. TRANSACTION_END: a
transaction that ends after its command byte and before its request's last byte leaves REFUSED (SHORT) naming the
code; one with no complete byte, one whose request was taken, and an ignored one change nothing but the transaction.
One whose bytes spell a whole request that no command has taken has the effect and the response of that request, by
the model's choice at its end (log entry 25). -/
def Obligations.TransactionBeginsAndEnds : Prop :=
  (∀ s : State, s.spi = .idle →
    (s.inReset = false → exec .transactionBegin s = .next { s with spi := .active s.response false }) ∧
    (s.inReset = true → exec .transactionBegin s = .next { s with spi := .ignored })) ∧
  (∀ (s : State) (out : Option Response) (code : Byte) (rest : List Byte) (n : Nat), s.spi = .active out false →
    requestLength code = some n → rest.length + 1 < n → exec (.transactionEnd (code :: rest)) s = .next
      { s with spi := .idle, response := some { code, status := .refused .short, data := [] } }) ∧
  (∀ (s : State) (out : Option Response), s.spi = .active out false →
    exec (.transactionEnd []) s = .next { s with spi := .idle }) ∧
  (∀ (s : State) (out : Option Response) (bytes : List Byte), s.spi = .active out true ∨ s.spi = .ignored →
    exec (.transactionEnd bytes) s = .next { s with spi := .idle }) ∧
  (∀ (s : State) (out : Option Response) (bytes : List Byte) (c : Instr), s.Taking out → takeRequest bytes = some c →
    ∃ t : State, exec c s = .next t ∧ exec (.transactionEnd bytes) s = .next { t with spi := .idle })

/-- The bytes of a request, and any that follow, are taken as that request, and no shorter run of them is: every field at
every value. A request's length is that of Table 12-4. -/
def Obligations.RequestBytesRoundTrip : Prop :=
  ∀ (c : Instr) (bytes : List Byte), c.wellFormed = true → requestBytes c = some bytes →
    (∀ extra, takeRequest (bytes ++ extra) = some c) ∧
    (∀ n, n < bytes.length → takeRequest (bytes.take n) = none) ∧
    (∀ code rest, bytes = code :: rest → code.toNat < 0x11 → requestLength code = some bytes.length)

/-- SOFT_RESET: every window entry is kept with its fields, each side STALE and its notice clear; both links take their
reset values with their configuration kept; the arbiter's counts and pointers, the event queue and the overflow flag are
reset; part configuration and outstanding transaction are kept; an access IN_MEMORY stays and is no longer captured. The
captured mark is the model's (log entry 15). -/
def Obligations.SoftResetBlocks : Prop :=
  ∀ (s : State) (out : Option Response), s.Taking out → ∃ t : State, exec .softReset s = .next t ∧
    (∀ i, t.window i = (s.window i).map fun w =>
      { w with exportSide := w.exportSide.map fun _ => .stale, importSide := w.importSide.map fun _ => .stale,
               notice := false }) ∧
    (∀ l, t.link l = Link.reset (s.link l).config) ∧
    t.applyPointer = .a ∧ t.sweepPointer = .a ∧ t.events = [] ∧ t.overflow = false ∧ t.intn = false ∧
    t.config = s.config ∧ t.port = s.port ∧ t.pending = s.pending ∧ t.inReset = false ∧
    t.response = some { code := 0x10, status := .ok, data := [] } ∧ t.spi = .active out true ∧
    (s.host.phase = .idle → t.host = s.host) ∧
    (s.host.phase = .inMemory → t.host = { s.host with captured := false })

/-- A held access at SOFT_RESET: a DROP write completes with OK and a FAULT write with FAULT; every other held access enters
CLAIMING as plain with its timer stopped, keeping its classification. -/
def Obligations.SoftResetReclassifies : Prop :=
  ∀ (s : State) (out : Option Response) (acc : Access), s.Taking out → s.host.phase.held = true →
    s.host.access = some acc → ∃ t : State, exec .softReset s = .next t ∧
      (∀ i o w d, s.host.classification = some (.window i o) → s.window i = some w → w.direction = .imports →
        acc.kind = .write d →
        (w.policy = some .drop →
          t.host = { HostPort.reset with completion := some { fault := false, data := none } }) ∧
        (w.policy = some .fault →
          t.host = { HostPort.reset with completion := some { fault := true, data := none } })) ∧
      ((acc.kind = .read ∨ s.host.classification = some .noWindow ∨
          (∀ i o w, s.host.classification = some (.window i o) → s.window i = some w →
            w.direction ≠ .imports ∨ w.policy = some .pass)) →
        t.host = { s.host with phase := .claiming, handling := some .plain, holdTimer := .stopped })

/-- HARDWARE_RESET puts every block and every configuration field at its hardware-reset value; an outstanding
transaction keeps the port busy for nobody, and a selected management transaction is to be ignored. RESET_END ends it
and changes nothing else. While it lasts, a memory completion only frees the port and every other happening and every
request changes nothing; after it, a completion that is owned by nobody frees the port, changes no block, and a new
choice is made. The queue is kept, and a command that cannot occur changes nothing, by the model's choice (log entries
4 and 16). -/
def Obligations.HardwareResetBlocks : Prop :=
  (∀ s : State, exec .hardwareReset s = .next
    { State.reset with
      pending := s.pending, inReset := true
      port := s.port.map fun t => { t with owner := .nobody }
      spi := if s.spi = .idle then .idle else .ignored }) ∧
  (∀ s : State, exec .resetEnd s = .next { s with inReset := false }) ∧
  (∀ (s : State) (c : Instr), s.inReset = true →
    (∀ status, c ≠ .memoryCompletion status) → (∀ bytes, c ≠ .transactionEnd bytes) → c ≠ .transactionBegin →
    c ≠ .hardwareReset → c ≠ .resetEnd → exec c s = .next s) ∧
  (∀ (s : State) (status : MemStatus), s.inReset = true →
    exec (.memoryCompletion status) s = .next { s with port := none }) ∧
  (∀ (s : State) (status : MemStatus) (t : PortTransaction), s.inReset = false → s.port = some t → t.owner = .nobody →
    exec (.memoryCompletion status) s = .next { s with port := none }.roomTest.arbiterChoice.finish)

/-- The state after hardware reset: every window OFF; both links DISABLED with no fault reason, no peer and no effective
class, at rank UNKNOWN, with the configuration of Table 8-3, every queue, list and table empty, every timer stopped, every
sequence value 0, every flag clear, the lines at rest, the receivers in HUNT and the sweep engines IDLE; the part
configuration of Table 11-3; the host port IDLE with every item absent; the memory port free, the patience counts 0 and
both pointers at link A; no event, overflow clear and INTN released; the response buffer NONE. That the reset has ended
with the ports idle is the model's choice (log entry 16). -/
def Obligations.ResetValues : Prop :=
  (∀ i, State.reset.window i = none) ∧
  (∀ l, State.reset.link l =
    { config :=
        { mode := .normal, lineRate := .fast, frameClass := .sixteen, inFlightLimit := 8, flushTime := 40,
          ackTimeout := 400, retryLimit := 6, silenceLimit := 20, trainingTimeout := 100, holdMark := 16,
          peerHoldLimit := 50 }
      control :=
        { state := .disabled, faultReason := none, peer := none, effectiveClass := none, rank := .unknown,
          trainingTimer := .stopped, peerHoldTimer := .stopped }
      capture := { queue := [], flushTimer := .stopped, flushDue := false }
      tx :=
        { retransmit := [], nextSend := 0, oldest := 0, retryCount := 0, peerHold := false, nakRequest := false,
          ackTimer := .stopped, idleSent := false, output := .rest }
      rx :=
        { alignment := .hunt, huntRun := 0, malformedRun := 0, silenceTimer := .stopped, assembly := none,
          receiveExpected := 0, nakSent := false }
      apply := { queue := [], holdFlag := false, outstanding := .none }
      conflict := { table := [], horizon := 0 }
      sweep := { active := none, read := .none }
      patience := { apply := 0, sweep := 0 } }) ∧
  State.reset.config = { nodeId := 0, holdLimit := 25, applyShare := 4, sweepShare := 16, mask := 0 } ∧
  State.reset.host =
    { phase := .idle, access := none, classification := none, handling := none, captured := false,
      holdTimer := .stopped, completion := none } ∧
  State.reset.port = none ∧ State.reset.applyPointer = .a ∧ State.reset.sweepPointer = .a ∧
  State.reset.events = [] ∧ State.reset.overflow = false ∧ State.reset.intn = false ∧
  State.reset.response = none ∧ State.reset.spi = .idle ∧ State.reset.inReset = false ∧ State.reset.pending = []

/-! ## Host accesses -/

/-- HOST_ACCESS_ARRIVAL. While an access is in progress none arrives. With lane mask 0 the access completes with OK at
once. An access to no window is plain and stands in CLAIMING. At a window of TableLaw: with no queued WRITE record for
its word, or at an EXPORT window, it proceeds; at an IMPORT or SHARED window with one it enters WAIT_DRAIN, the drain
point on the newest such record of the apply queue. That an access met by another changes nothing, that no data comes
with lane mask 0, and the field for the completion are the model's choices (log entries 4, 12 and 14). -/
def Obligations.ArrivalClassified : Prop :=
  ∀ (s : State) (acc : Access), s.inReset = false →
    (s.host.phase ≠ .idle → exec (.hostAccessArrival acc) s = .next s) ∧
    (s.host.phase = .idle → acc.mask = 0 →
      exec (.hostAccessArrival acc) s = .next (s.hostEnds false none).finish) ∧
    (s.host.phase = .idle → acc.mask ≠ 0 →
      (∀ i, ∀ w ∈ s.window i, ¬ (w.base ≤ 4 * acc.addr.toNat ∧ 4 * acc.addr.toNat < w.base + w.size)) →
      exec (.hostAccessArrival acc) s = .next (s.hostAt acc .noWindow .claiming (some .plain)).finish) ∧
    (∀ i w, s.TableLaw → s.ArrivesAt acc i w →
      let o : Offset := BitVec.ofNat 20 ((4 * acc.addr.toNat - w.base) / 4)
      ((w.direction = .exports ∨ ¬ (s.link w.link).HasWriteFor w.tag o) →
        ∃ u : State, exec (.hostAccessArrival acc) s = .next u.finish ∧
          (s.hostAt acc (.window i o) .idle none).Proceeded u acc i w) ∧
      (w.direction ≠ .exports → ∀ pre m d seen drain post,
        (s.link w.link).apply.queue = pre ++ (⟨.write w.tag o m d, seen, drain⟩ : ApplyEntry) :: post →
        (∀ e ∈ post, e.record.isWriteOf w.tag o = false) →
        ∃ h, exec (.hostAccessArrival acc) s = .next (State.finish
          ((s.modLink w.link fun k => { k with apply := { k.apply with
            queue := pre ++ ⟨.write w.tag o m d, seen, true⟩ :: post } }).hostAt acc (.window i o) .waitDrain h))))

/-- CAPTURE_HOLD_EXPIRY of the write in WAIT_ROOM, its hold timer run out: the write becomes plain in CLAIMING, and
its window loses its export side with cause CAPTURE_TIMEOUT. In any other phase, or with the timer not run out,
nothing changes, by the model's choice (log entries 3 and 4). -/
def Obligations.HoldExpiryPassesUncaptured : Prop :=
  ∀ (s : State), s.inReset = false →
    (∀ i o w, s.host.phase = .waitRoom → s.host.holdTimer = .running 0 →
      s.host.classification = some (.window i o) → s.window i = some w → s.SweepLaw →
      ∃ u : State, exec .captureHoldExpiry s = .next u.finish ∧ s.hostPlain.ExportLost u i w .captureTimeout) ∧
    ((s.host.phase ≠ .waitRoom ∨ s.host.holdTimer ≠ .running 0) → exec .captureHoldExpiry s = .next s)

/-- The record at the head of an apply queue leaves it: the rest moves up, no record is outstanding, the hold flag follows
the occupancy, and the next head offers its frame's seen value to the horizon. Where the drain point of the access in
WAIT_DRAIN rested on that record, the access proceeds from there; otherwise nothing else changes. -/
def Obligations.HeadRecordLeaves : Prop :=
  ∀ (s : State) (l : LinkId) (e : ApplyEntry) (rest : List ApplyEntry), (s.link l).apply.queue = e :: rest →
    let left := s.modLink l fun k => { k with
      apply := { queue := rest, holdFlag := k.flagAt rest.length, outstanding := .none }
      control := { k.control with peerHoldTimer := k.loopTimer (k.flagAt rest.length) }
      conflict := match rest.head?.bind ApplyEntry.seen with
        | some v => k.horizonAfter v
        | none => k.conflict }
    ((s.host.phase ≠ .waitDrain ∨ (∃ l', ∃ x ∈ (left.link l').apply.queue, x.drainPoint = true)) →
      s.popApply l = left) ∧
    (s.host.phase = .waitDrain → (∀ l', ∀ x ∈ (left.link l').apply.queue, x.drainPoint = false) →
      ∀ acc i o w, s.host.access = some acc → s.host.classification = some (.window i o) → s.window i = some w →
        s.TableLaw → left.Proceeded (s.popApply l) acc i w)

/-! ## The memory port -/

/-- When a claim is presented and when it is eligible: the apply claim and the sweep claim of a link, and the capture claims
of a sweep read and of a capturing host write; a claim of a plain access is always eligible. -/
def Obligations.ClaimTests : Prop :=
  ∀ (s : State),
    (∀ l, (s.link l).applyClaim = true ↔ (s.link l).apply.outstanding = .none ∧
      ∃ t o m d seen drain rest,
        (s.link l).apply.queue = (⟨.write t o m d, seen, drain⟩ : ApplyEntry) :: rest) ∧
    (∀ l i w o, s.sweepClaim l = some (i, w, o) ↔
      (s.link l).sweep.active = some { phase := .reading, window := i, next := o } ∧ s.window i = some w ∧
        (s.link l).sweep.read = .none ∧ (w.direction = .shared → ¬ (s.link l).HasWriteFor w.tag o)) ∧
    (∀ l, s.sweepEligible l = true ↔ ∃ i w o, s.sweepClaim l = some (i, w, o) ∧
      (s.link l).capture.queue.length < 48 ∧ (s.link l).HasPendingRoom w o) ∧
    (s.host.handling ≠ some .capturing → s.hostEligible = true) ∧
    (∀ i o w, s.host.handling = some .capturing → s.host.classification = some (.window i o) →
      s.window i = some w → (s.hostEligible = true ↔
        ((w.exportSide = some .inStep ∨ w.exportSide = some .sweeping) → (s.linkState w.link).running = true →
          (s.link w.link).HasPendingRoom w o ∧
            ((s.link w.link).capture.queue.length < 48 ∨
              (w.coalesce = some true ∧
                ∃ m d, CaptureEntry.record (.write w.tag o m d) ∈ (s.link w.link).capture.queue)))))

/-- The order of the arbiter's choice: an apply claim of an urgent link; a patient apply claim, then a patient sweep
claim; the host claim; an apply claim, then a sweep claim; between two links the pointer of the kind decides. With the
port busy, or with nothing to choose, ARBITER_CHOICE changes nothing. That a command without a choice changes nothing is
the model's choice (log entry 4). -/
def Obligations.GrantOrder : Prop :=
  ∀ (s : State),
    let apply (l : LinkId) : Prop := (s.link l).applyClaim = true
    let sweep (l : LinkId) : Prop := s.sweepEligible l = true
    let urgent (l : LinkId) : Prop := apply l ∧
      ((s.link l).config.holdMark ≤ (s.link l).apply.queue.length ∨
        ∃ e ∈ (s.link l).apply.queue, e.drainPoint = true)
    let patient (l : LinkId) : Prop := apply l ∧ s.config.applyShare ≤ (s.link l).patience.apply
    let patientSweep (l : LinkId) : Prop := sweep l ∧ s.config.sweepShare ≤ (s.link l).patience.sweep
    let host : Prop := s.host.phase = .claiming ∧ s.hostEligible = true
    (∀ l, preferred s.applyPointer urgent l → s.choose = some (.apply l)) ∧
    ((∀ l, ¬ urgent l) →
      (∀ l, preferred s.applyPointer patient l → s.choose = some (.apply l)) ∧
      ((∀ l, ¬ patient l) →
        (∀ l, preferred s.sweepPointer patientSweep l → s.choose = some (.sweep l)) ∧
        ((∀ l, ¬ patientSweep l) →
          (host → s.choose = some .host) ∧
          (¬ host →
            (∀ l, preferred s.applyPointer apply l → s.choose = some (.apply l)) ∧
            ((∀ l, ¬ apply l) →
              (∀ l, preferred s.sweepPointer sweep l → s.choose = some (.sweep l)) ∧
              ((∀ l, ¬ sweep l) → s.choose = none)))))) ∧
    ((s.port.isSome = true ∨ s.choose = none) → exec .arbiterChoice s = .next s)

/-- The grant of the host claim: the transaction of the access is issued, every presented non-host claim counts the
grant up to its share, and the access enters IN_MEMORY. A plain access, or a write whose capture is no longer made,
changes nothing else. A captured write merges into the newest complete WRITE record for its word where its window
coalesces, lane by lane, and otherwise enters at the tail; the word of a SHARED window gets or keeps a pending entry
without frame number at UNKNOWN and SENIOR rank. The newest record as merge target is the model's reading (log entry 7).
-/
def Obligations.HostGrant : Prop :=
  ∀ (s : State) (acc : Access), s.inReset = false → s.port = none → s.choose = some .host →
    s.host.access = some acc →
    let count (l : LinkId) (k : Link) : Link := { k with patience :=
      { apply := if k.applyClaim = true ∧ k.patience.apply < s.config.applyShare then k.patience.apply + 1
          else k.patience.apply
        sweep := if (s.sweepClaim l).isSome = true ∧ k.patience.sweep < s.config.sweepShare then k.patience.sweep + 1
          else k.patience.sweep } }
    let granted (captured : Bool) : State :=
      { ((s.modLink .a (count .a)).modLink .b (count .b)) with
        port := some { owner := .host, kind := acc.kind, addr := acc.addr, mask := acc.mask }
        host := { s.host with phase := .inMemory, captured, holdTimer := .stopped } }
    ((s.host.handling ≠ some .capturing ∨ s.hostCaptureMade = false) →
      exec .arbiterChoice s = .next (granted false).finish) ∧
    (∀ i o w d, s.host.handling = some .capturing → acc.kind = .write d →
      s.host.classification = some (.window i o) → s.window i = some w →
      (w.exportSide = some .inStep ∨ w.exportSide = some .sweeping) → (s.linkState w.link).running = true →
      let entries (k : Link) : ConflictUnit :=
        if w.direction = .shared ∧ (k.control.rank = .unknown ∨ k.control.rank = .senior) then
          { k.conflict with table :=
            if k.conflict.table.any (fun e => decide (e.tag = w.tag ∧ e.offset = o)) then
              k.conflict.table.map fun e => if e.tag = w.tag ∧ e.offset = o then { e with frame := none } else e
            else k.conflict.table ++ [{ tag := w.tag, offset := o, frame := none }] }
        else k.conflict
      ((w.coalesce ≠ some true ∨
          ∀ m' d', CaptureEntry.record (.write w.tag o m' d') ∉ (s.link w.link).capture.queue) →
        exec .arbiterChoice s = .next (State.finish ((granted true).modLink w.link fun k => { k with
          capture := { k.capture with
            queue := k.capture.queue ++ [.record (.write w.tag o acc.mask d)]
            flushTimer := if k.capture.queue = [] then .running k.config.flushTime else k.capture.flushTimer }
          conflict := entries k }))) ∧
      (∀ pre m' d' post, w.coalesce = some true →
        (s.link w.link).capture.queue = pre ++ .record (.write w.tag o m' d') :: post →
        (∀ m d, CaptureEntry.record (.write w.tag o m d) ∉ post) →
        ∃ d'' : Word,
          (∀ lane : Fin 4, d''.extractLsb' (8 * lane.val) 8 =
            if acc.mask.getLsbD lane.val then d.extractLsb' (8 * lane.val) 8 else d'.extractLsb' (8 * lane.val) 8) ∧
          exec .arbiterChoice s = .next (State.finish ((granted true).modLink w.link fun k => { k with
            capture := { k.capture with queue := pre ++ .record (.write w.tag o (m' ||| acc.mask) d'') :: post }
            conflict := entries k }))))

/-- The grant of a sweep read: a read of the word with lane mask 15 is issued, its placeholder enters at the tail of the
capture queue and starts the flush timer of an empty one, the word of a SHARED window gets or keeps a pending entry without
frame number at UNKNOWN and SENIOR rank, the read is current, the claimant's count is 0 and the sweep pointer names the
other link. -/
def Obligations.SweepGrant : Prop :=
  ∀ (s : State) (l : LinkId) (i : Index) (w : Window) (o : Offset), s.inReset = false → s.port = none →
    s.choose = some (.sweep l) → s.sweepClaim l = some (i, w, o) →
    exec .arbiterChoice s = .next (State.finish { (s.modLink l fun k => { k with
        capture := { k.capture with
          queue := k.capture.queue ++ [.placeholder w.tag o]
          flushTimer := if k.capture.queue = [] then .running k.config.flushTime else k.capture.flushTimer }
        conflict :=
          if w.direction = .shared ∧ (k.control.rank = .unknown ∨ k.control.rank = .senior) then
            { k.conflict with table :=
              if k.conflict.table.any (fun e => decide (e.tag = w.tag ∧ e.offset = o)) then
                k.conflict.table.map fun e => if e.tag = w.tag ∧ e.offset = o then { e with frame := none } else e
              else k.conflict.table ++ [{ tag := w.tag, offset := o, frame := none }] }
          else k.conflict
        sweep := { k.sweep with read := .current }
        patience := { k.patience with sweep := 0 } }) with
      port := some { owner := .sweep l, kind := .read, addr := BitVec.ofNat 24 ((w.base + 4 * o.toNat) / 4), mask := 15 }
      sweepPointer := otherLink l })

/-- The decision of a head WRITE record, by the first case that applies. Without an importing window of its tag, or with an
offset beyond that window, it is discarded with RECORD_DISCARDED; for a word of a SHARED window with a pending entry at
SENIOR rank, in silence; after a discard the arbiter chooses again. Otherwise its memory write is issued at base + 4 × offset,
it becomes outstanding, the claimant's count is 0 and the apply pointer names the other link. -/
def Obligations.WriteRecordDecided : Prop :=
  ∀ (s : State) (l : LinkId) (t : Tag) (o : Offset) (m : LaneMask) (d : Word) (seen : Option Seq) (drain : Bool)
    (rest : List ApplyEntry), s.inReset = false → s.port = none → s.choose = some (.apply l) →
    (s.link l).apply.queue = ⟨.write t o m d, seen, drain⟩ :: rest →
    ((∀ i, ∀ w ∈ s.window i, w.link = l → w.importSide.isSome = true → w.tag ≠ t) →
      exec .arbiterChoice s = .next
        ((s.raise (.recordDiscarded l t .unknownTag 1)).popApply l).roomTest.arbiterChoice.finish) ∧
    (s.TableLaw → ∀ i w, s.window i = some w → w.link = l → w.importSide.isSome = true → w.tag = t →
      (w.size ≤ 4 * o.toNat → exec .arbiterChoice s = .next
        ((s.raise (.recordDiscarded l t .offsetRange 1)).popApply l).roomTest.arbiterChoice.finish) ∧
      (4 * o.toNat < w.size →
        ((w.direction = .shared ∧ (s.link l).control.rank = .senior ∧
            ∃ e ∈ (s.link l).conflict.table, e.tag = t ∧ e.offset = o) →
          exec .arbiterChoice s = .next (s.popApply l).roomTest.arbiterChoice.finish) ∧
        (¬ (w.direction = .shared ∧ (s.link l).control.rank = .senior ∧
            ∃ e ∈ (s.link l).conflict.table, e.tag = t ∧ e.offset = o) →
          exec .arbiterChoice s = .next (State.finish { (s.modLink l fun k => { k with
              apply := { k.apply with outstanding := .forWindow i }, patience := { k.patience with apply := 0 } }) with
            port := some { owner := .apply l, kind := .write d,
                           addr := BitVec.ofNat 24 ((w.base + 4 * o.toNat) / 4), mask := m }
            applyPointer := otherLink l }))))

/-- MEMORY_COMPLETION of a host access: the access completes to the master with the memory's status, and a read that
ended OK with its data; the port is free and the arbiter chooses again. Only a FAULT on a captured write acts on the
window table: its window loses its export side with cause MEMORY_FAULT. A write whose window was cleared while it was
IN_MEMORY changes no window. With the port free a completion changes nothing, by the model's choice (log entry 4). The
field for the completion and the mark of a cleared window are the model's (log entries 14 and 15). -/
def Obligations.HostAccessCompletes : Prop :=
  (∀ (s : State) (status : MemStatus), s.port = none → exec (.memoryCompletion status) s = .next s) ∧
  (∀ (s : State) (t : PortTransaction), s.inReset = false → s.port = some t → t.owner = .host →
    let free : State := { s with port := none }
    (∀ data, exec (.memoryCompletion (.ok data)) s = .next
      (free.hostEnds false (if t.kind = .read then some data else none)).arbiterChoice.finish) ∧
    ((s.host.captured = false ∨ ∀ i o, s.host.classification ≠ some (.window i o)) →
      exec (.memoryCompletion .fault) s = .next (free.hostEnds true none).arbiterChoice.finish) ∧
    (∀ i o w, s.host.captured = true → s.host.classification = some (.window i o) → s.window i = some w →
      s.SweepLaw → ∃ u : State, exec (.memoryCompletion .fault) s = .next u.arbiterChoice.finish ∧
        (free.hostEnds true none).ExportLost u i w .memoryFault))

/-- MEMORY_COMPLETION of an apply write: the record leaves its queue, and on FAULT the import side of the window it was
decided against goes STALE with WINDOW_STALE where it was not; a window cleared meanwhile is not changed, and after a
soft reset there is no record to remove. The held write is then tested for room and the arbiter chooses again. The order
of the record's leaving and the event, and the mark of a cleared window, are the model's readings (log entries 11 and
15). -/
def Obligations.ApplyWriteCompletes : Prop :=
  ∀ (s : State) (t : PortTransaction) (l : LinkId) (status : MemStatus), s.inReset = false → s.port = some t →
    t.owner = .apply l →
    let free : State := { s with port := none }
    let left := free.popApply l
    ((s.link l).apply.outstanding = .none →
      exec (.memoryCompletion status) s = .next free.roomTest.arbiterChoice.finish) ∧
    ((s.link l).apply.outstanding = .windowCleared →
      exec (.memoryCompletion status) s = .next left.roomTest.arbiterChoice.finish) ∧
    (∀ i, (s.link l).apply.outstanding = .forWindow i →
      (status ≠ .fault → exec (.memoryCompletion status) s = .next left.roomTest.arbiterChoice.finish) ∧
      (status = .fault → ∀ w, left.window i = some w →
        (w.importSide = some .stale →
          exec (.memoryCompletion status) s = .next left.roomTest.arbiterChoice.finish) ∧
        (w.importSide = some .inStep ∨ w.importSide = some .filling →
          exec (.memoryCompletion status) s = .next
            { (left.offered [.windowStale i .importSide .applyFault]) with
              windows := left.windows.set i (some { w with importSide := some .stale }) }.roomTest.arbiterChoice.finish)))

/-- MEMORY_COMPLETION of a sweep read. Current and OK: the data fills the placeholder, in a coalescing window the
older WRITE record for the word is removed, and the engine goes to the next word, or to CLOSING after the last.
Current and FAULT: the placeholder is removed, its pending entry settled, and the sweep aborted with MEMORY_FAULT.
Orphan: the placeholder alone is removed, whatever the status. A queue emptied meanwhile is not changed, and after a
soft reset, with no read outstanding, the completion changes no block. The arbiter then chooses again. That every
older record for the word goes is the model's reading (log entry 7). -/
def Obligations.SweepReadCompletes : Prop :=
  ∀ (s : State) (p : PortTransaction) (l : LinkId), s.inReset = false → s.port = some p → p.owner = .sweep l →
    s.PlaceholderLaw → s.SweepLaw →
    let free : State := { s with port := none }
    let removed (pre post : List CaptureEntry) (t : Tag) (o : Offset) : State := free.modLink l fun k => { k with
      capture := { k.capture with
        queue := pre ++ post
        flushTimer := if pre ++ post = [] then .stopped else k.capture.flushTimer }
      conflict := { k.conflict with table := k.settledTable t o (pre ++ post) }
      sweep := { k.sweep with read := .none } }
    (∀ status, (s.link l).sweep.read = .none →
      exec (.memoryCompletion status) s = .next free.roomTest.arbiterChoice.finish) ∧
    (∀ status, (s.link l).sweep.read = .orphan →
      (∀ pre t o post, (s.link l).capture.queue = pre ++ .placeholder t o :: post →
        exec (.memoryCompletion status) s = .next (removed pre post t o).roomTest.arbiterChoice.finish) ∧
      ((∀ e ∈ (s.link l).capture.queue, e.isPlaceholder = false) →
        exec (.memoryCompletion status) s = .next (State.finish (State.arbiterChoice (State.roomTest
          (free.modLink l fun k => { k with sweep := { k.sweep with read := .none } })))))) ∧
    (∀ i o w pre t o' post, (s.link l).sweep.read = .current →
      (s.link l).sweep.active = some { phase := .reading, window := i, next := o } → s.window i = some w →
      (s.link l).capture.queue = pre ++ .placeholder t o' :: post →
      (∀ d, exec (.memoryCompletion (.ok d)) s = .next (State.finish (State.arbiterChoice (State.roomTest
        (free.modLink l fun k => { k with
          capture := { k.capture with
            queue := (if w.coalesce = some true then pre.filter fun e => !e.isWriteOf t o' else pre) ++
              .record (.write t o' 15 d) :: post }
          sweep := { k.sweep with
            read := .none
            active := some (if 4 * (o.toNat + 1) < w.size then { phase := .reading, window := i, next := o + 1 }
              else { phase := .closing, window := i, next := o }) } }))))) ∧
      (∃ u : State, exec (.memoryCompletion .fault) s = .next u.roomTest.arbiterChoice.finish ∧
        (removed pre post t o').ExportLost u i w .memoryFault))

/-- CONTROL_RECORD_DECISION: the control record at the head acts on the import side of its window by Table 5-1, and then
leaves the queue; without an importing window of its tag it only leaves. Where no control record stands at the head,
nothing changes. That a command without a control record changes nothing is the model's choice (log entry 4). -/
def Obligations.ControlRecordActs : Prop :=
  (∀ (s : State) (l : LinkId), (s.link l).apply.queue = [] → exec (.controlRecordDecision l) s = .next s) ∧
  (∀ (s : State) (l : LinkId) (e : ApplyEntry) (rest : List ApplyEntry), s.inReset = false →
    (s.link l).apply.queue = e :: rest → s.TableLaw →
    let decided (u : State) : Prop := exec (.controlRecordDecision l) s = .next (u.popApply l).finish
    let side (i : Index) (w : Window) (m : ImportState) (es : List Event) : State :=
      { (s.offered es) with windows := s.windows.set i (some { w with importSide := some m }) }
    (∀ t, (e.record = .sweepOpen t ∨ e.record = .sweepClose t ∨ e.record = .stale t) →
      (∀ i, ∀ w ∈ s.window i, w.link = l → w.importSide.isSome = true → w.tag ≠ t) → decided s) ∧
    (∀ i w, s.window i = some w → w.link = l → w.importSide.isSome = true →
      (e.record = .sweepOpen w.tag → decided (side i w .filling [])) ∧
      (e.record = .sweepClose w.tag →
        (w.importSide = some .filling → decided (side i w .inStep [.windowInStep i .importSide])) ∧
        (w.importSide ≠ some .filling → decided s)) ∧
      (e.record = .stale w.tag →
        (w.importSide ≠ some .stale → decided (side i w .stale [.windowStale i .importSide .peerNotice])) ∧
        (w.importSide = some .stale → decided s))) ∧
    (e.record.isWrite = true → exec (.controlRecordDecision l) s = .next s))

/-! ## Frames and the transmitter -/

/-- FRAME_BUILD. Where a condition of the build does not hold, nothing changes. Where all hold, one frame of at most the
effective class is appended: the notices of the link's windows in increasing index, then complete records from the head
of the queue up to the placeholder; it carries next-send and receive-expected and the check over them, unsent. The
notices placed are cleared, the records leave the queue, the flush timer restarts or stops, flush due says whether a
notice is still owed, and the pending entry of each WRITE placed takes the frame's number where no later record for its
word is queued. That a command without the conditions changes nothing is the model's choice (log entry 4). -/
def Obligations.FrameBuilt : Prop :=
  (∀ (s : State) (l : LinkId), ((s.link l).control.effectiveClass = none ∨
      (s.linkState l ≠ .up ∧ s.linkState l ≠ .draining)) → exec (.frameBuild l) s = .next s) ∧
  (∀ (s : State) (l : LinkId) (c : FrameClass), s.inReset = false → (s.link l).control.effectiveClass = some c →
    (¬ s.MayBuild l c → exec (.frameBuild l) s = .next s) ∧
    (s.MayBuild l c → ∀ (owed : List Index) (records : List Record) (blocked : List CaptureEntry),
      owed.Pairwise (· < ·) → (∀ i, i ∈ owed ↔ ∃ w ∈ s.window i, w.link = l ∧ w.notice = true) →
      (s.link l).capture.queue = records.map CaptureEntry.record ++ blocked →
      (∀ e ∈ blocked.head?, e.isPlaceholder = true) →
      let placed := owed.take c.items
      let taken := records.take (c.items - placed.length)
      let left := (records.drop (c.items - placed.length)).map CaptureEntry.record ++ blocked
      let items := (placed.filterMap fun i => (s.window i).map fun w => Record.stale w.tag) ++ taken
      let seq := (s.link l).tx.nextSend
      let seen := (s.link l).rx.receiveExpected
      ∃ u : State, exec (.frameBuild l) s = .next u.finish ∧
        u = { (s.modLink l fun k => { k with
          capture :=
            { queue := left
              flushTimer := if left = [] then .stopped else .running k.config.flushTime
              flushDue := decide (c.items < owed.length) }
          tx := { k.tx with
            retransmit := k.tx.retransmit ++ [{ seq, seen, items, check := frameCheck seq seen items, sent := false }]
            nextSend := seq + 1 }
          conflict := { k.conflict with table := k.conflict.table.map fun e =>
            if (items.any (·.isWriteOf e.tag e.offset) = true ∧ left.any (·.isWriteOf e.tag e.offset) = false) then
              { e with frame := some seq } else e } }) with windows := u.windows } ∧
        (∀ i, u.window i = if i ∈ placed then (s.window i).map fun w => { w with notice := false } else s.window i)))

/-- FLUSH_TIMER_EXPIRY with the timer run out stops it and sets flush due; not run out, it changes nothing, by the
model's choice (log entries 3 and 4). -/
def Obligations.FlushTimerSetsFlushDue : Prop :=
  ∀ (s : State) (l : LinkId), s.inReset = false →
    ((s.link l).capture.flushTimer = .running 0 → exec (.flushTimerExpiry l) s = .next (State.finish
      (s.modLink l fun k => { k with capture := { k.capture with flushTimer := .stopped, flushDue := true } }))) ∧
    ((s.link l).capture.flushTimer ≠ .running 0 → exec (.flushTimerExpiry l) s = .next s)

/-- Go-back, at the expiry of the ack timer that has run out and at a NAK that names the head frame after its ack has
acted: every frame unsent, the ack timer stopped, the retry count raised by one, and a count above the retry limit
puts the link in FAULT with NO_PROGRESS. Any other NAK acts as an ack alone. An expiry whose timer has been stopped,
paused or restarted does nothing, after the go-back of a NAK too, by the model's choice (log entries 3 and 23), and
for a stray ack the run of head frames is its reading (log entry 6). -/
def Obligations.GoBackResends : Prop :=
  ∀ (s : State) (l : LinkId), s.SweepLaw →
    let back (x : State) : State := x.modLink l fun k => { k with tx := { k.tx with
      retransmit := k.tx.retransmit.map fun f => { f with sent := false }
      retryCount := k.tx.retryCount + 1, ackTimer := .stopped } }
    let ends (x : State) (c : Instr) : Prop :=
      ((x.link l).tx.retryCount + 1 ≤ (x.link l).config.retryLimit → exec c s = .next (back x).finish) ∧
      ((x.link l).config.retryLimit < (x.link l).tx.retryCount + 1 →
        ∃ u : State, exec c s = .next u.finish ∧ s.WentDown u l (some .noProgress))
    (s.inReset = false → (s.linkState l = .up ∨ s.linkState l = .draining) →
      (s.link l).tx.ackTimer = .running 0 → ends s (.ackTimerExpiry l)) ∧
    ((s.link l).tx.ackTimer ≠ .running 0 → exec (.ackTimerExpiry l) s = .next s) ∧
    (∀ expected gone rest, s.Hears l → (s.link l).AckSplits expected gone rest →
      let acked := s.modLink l fun k => { k.heard with tx := k.heard.acked gone rest }
      ((∃ f ∈ rest.head?, f.seq = expected) → ends acked (.symbolArrival l (nakSymbol expected))) ∧
      ((∀ f ∈ rest.head?, f.seq ≠ expected) →
        exec (.symbolArrival l (nakSymbol expected)) s = .next acked.finish))

/-- The transmitter's choice at the end of a symbol outside a frame, and at the end of a frame. HUNTING and TRAINING
send HELLOs with the node id, class-16 acceptance and seen-you as they stand. UP and DRAINING send a requested NAK with
receive-expected; else, with the peer hold clear and an IDLE sent since the last frame, the oldest unsent frame, now
marked sent, the ack timer starting where no frame was marked sent; else an IDLE with receive-expected, next-send and
the hold flag. With the line at rest neither command changes anything, by the model's choice (log entry 4). -/
def Obligations.NextSymbolChosen : Prop :=
  ∀ (s : State) (l : LinkId), s.inReset = false → (s.link l).config.mode = .normal →
    let k := s.link l
    let sends (c : Instr) (tx : Transmitter) : Prop :=
      exec c s = .next (State.finish (s.modLink l fun k => { k with tx }))
    let hello : Output :=
      .symbol (helloSymbol s.config.nodeId (decide (k.config.frameClass = .sixteen)) k.control.peer.isSome)
    let nak : Output := .symbol (nakSymbol k.rx.receiveExpected)
    let idle : Output := .symbol (idleSymbol k.rx.receiveExpected k.tx.nextSend k.apply.holdFlag)
    (∀ y, k.tx.output = .symbol y →
      ((k.control.state = .hunting ∨ k.control.state = .training) →
        sends (.transmitChoicePoint l) { k.tx with output := hello }) ∧
      ((k.control.state = .up ∨ k.control.state = .draining) →
        (k.tx.nakRequest = true →
          sends (.transmitChoicePoint l) { k.tx with nakRequest := false, output := nak }) ∧
        (∀ pre f post, k.tx.nakRequest = false → k.tx.retransmit = pre ++ f :: post →
          (∀ g ∈ pre, g.sent = true) → f.sent = false → k.tx.peerHold = false → k.tx.idleSent = true →
          sends (.transmitChoicePoint l) { k.tx with
            retransmit := pre ++ { f with sent := true } :: post
            output := .frame { f with sent := true }
            ackTimer := if pre.any Frame.sent ∨ post.any Frame.sent then k.tx.ackTimer
              else .running k.config.ackTimeout }) ∧
        (k.tx.nakRequest = false →
          ((∀ f ∈ k.tx.retransmit, f.sent = true) ∨ k.tx.peerHold = true ∨ k.tx.idleSent = false) →
          sends (.transmitChoicePoint l) { k.tx with idleSent := true, output := idle }))) ∧
    (∀ f, k.tx.output = .frame f → (k.control.state = .up ∨ k.control.state = .draining) →
      (k.tx.nakRequest = true →
        sends (.frameEnd l) { k.tx with idleSent := false, nakRequest := false, output := nak }) ∧
      (k.tx.nakRequest = false → sends (.frameEnd l) { k.tx with idleSent := true, output := idle })) ∧
    (k.tx.output = .rest →
      exec (.transmitChoicePoint l) s = .next s ∧ exec (.frameEnd l) s = .next s)

/-- FRAME_END in LOOP mode delivers the frame to the link's own apply queue. With room it is taken: it leaves the list,
the records enter at the tail, receive-expected advances and the hold flag follows. Refused for room, it stays in the
list, unsent, and no retry is counted. The frame in transmission inside the part stands in the transmitter's output, by
the model's choice (log entry 20). -/
def Obligations.LoopFrameDelivered : Prop :=
  ∀ (s : State) (l : LinkId) (f head : Frame) (rest : List Frame), s.inReset = false →
    (s.link l).config.mode = .loop → (s.linkState l = .up ∨ s.linkState l = .draining) →
    (s.link l).control.rank = .self → (s.link l).tx.output = .frame f → (s.link l).tx.retransmit = head :: rest →
    head.seq = f.seq → (s.link l).rx.receiveExpected = f.seq → s.SequenceLaw → s.AckTimerLaw →
    (s.link l).WithinCapacity →
    ((s.link l).apply.queue.length + f.items.length ≤ 32 →
      exec (.frameEnd l) s = .next (State.finish (s.modLink l fun k =>
        let occupancy := k.apply.queue.length + f.items.length
        { k with
          tx := { k.tx with retransmit := rest, oldest := f.seq + 1, retryCount := 0, output := .rest }
          rx := { k.rx with receiveExpected := f.seq + 1, nakSent := false }
          apply := { k.apply with
            queue := k.apply.queue ++ f.items.map fun r => { record := r, seen := some f.seen, drainPoint := false }
            holdFlag := k.flagAt occupancy }
          control := { k.control with peerHoldTimer := k.loopTimer (k.flagAt occupancy) } }))) ∧
    (32 < (s.link l).apply.queue.length + f.items.length →
      exec (.frameEnd l) s = .next (State.finish (s.modLink l fun k => { k with tx := { k.tx with
        retransmit := { head with sent := false } :: rest, output := .rest } })))

/-! ## The receiver -/

/-- Every symbol reads back as what it was made from, and a symbol is malformed exactly where its alignment bits are not 1
then 0, or it is a CONTROL symbol of code 00 or 11. -/
def Obligations.SymbolsReadBack : Prop :=
  (∀ ack nextSend hold, decodeSymbol (idleSymbol ack nextSend hold) = .idle ack nextSend hold) ∧
  (∀ seq seen count, 1 ≤ count → count ≤ 16 →
    decodeSymbol (symbolOf 0b01 (frameStartPayload seq seen count)) = .frameStart seq seen count) ∧
  (∀ p, decodeSymbol (symbolOf 0b10 p) = .data p) ∧
  (∀ expected, decodeSymbol (nakSymbol expected) = .nak expected) ∧
  (∀ id c y, decodeSymbol (helloSymbol id c y) = .hello id c y) ∧
  (∀ sym : Symbol, decodeSymbol sym = .malformed ↔
    sym.extractLsb' 18 2 ≠ 0b10#2 ∨ (sym.extractLsb' 16 2 = 0b11#2 ∧
      (sym.extractLsb' 14 2 = 0b00#2 ∨ sym.extractLsb' 14 2 = 0b11#2)))

/-- In HUNT an IDLE or HELLO raises the hunt run to 2, and the next one aligns the receiver, moves a HUNTING link to
TRAINING, and is then handled as the aligned receiver handles it; every other symbol sets the run to 0. A well-formed
symbol restarts the silence timer and a malformed one does not. The silence limit running out sets the run to 0 and
starts the timer again. -/
def Obligations.HuntAligns : Prop :=
  ∀ (s : State) (l : LinkId) (sym : Symbol), s.inReset = false → (s.link l).examines = true →
    (s.link l).rx.alignment = .hunt →
    ((decodeSymbol sym).aligns = true →
      ((s.link l).rx.huntRun < 2 → exec (.symbolArrival l sym) s = .next (State.finish (s.modLink l fun k => { k with
        rx := { k.rx with huntRun := k.rx.huntRun + 1, silenceTimer := .running k.config.silenceLimit } }))) ∧
      (2 ≤ (s.link l).rx.huntRun → exec (.symbolArrival l sym) s = exec (.symbolArrival l sym)
        (s.modLink l fun k => { k with
          rx := { k.rx with alignment := .aligned, huntRun := 0, malformedRun := 0, assembly := none }
          control := { k.control with
            state := if k.control.state = .hunting then .training else k.control.state } }))) ∧
    ((decodeSymbol sym).aligns = false → decodeSymbol sym ≠ .malformed →
      exec (.symbolArrival l sym) s = .next (State.finish (s.modLink l fun k => { k with
        rx := { k.rx with huntRun := 0, silenceTimer := .running k.config.silenceLimit } }))) ∧
    (decodeSymbol sym = .malformed → exec (.symbolArrival l sym) s = .next (State.finish (s.modLink l fun k => { k with
      rx := { k.rx with huntRun := 0 } }))) ∧
    ((s.link l).rx.silenceTimer = .running 0 →
      exec (.silenceTimerExpiry l) s = .next (State.finish (s.modLink l fun k => { k with
        rx := { k.rx with huntRun := 0, silenceTimer := .running k.config.silenceLimit } })))

/-- A malformed symbol at an ALIGNED receiver damages a frame under assembly; the fourth in a row, and the silence
limit running out, are line loss: a TRAINING link returns to HUNTING with its peer forgotten and its training timer
kept, an UP or DRAINING link enters FAULT with LINE_LOST. That the silence timer restarts at every line loss is the
model's reading (log entry 8), and that an expiry does nothing where the timer has not run out its choice (log entry
3). -/
def Obligations.LineLossByNoiseOrSilence : Prop :=
  ∀ (s : State) (l : LinkId) (sym : Symbol), s.inReset = false → s.ReceiverLaw → s.SweepLaw →
    (s.link l).rx.alignment = .aligned →
    let lost (c : Instr) : Prop :=
      (s.linkState l = .training → exec c s = .next (State.finish (s.modLink l fun k => { k with
        rx := { k.rx with
          alignment := .hunt, huntRun := 0, malformedRun := 0, silenceTimer := .running k.config.silenceLimit }
        control := { k.control with state := .hunting, peer := none } }))) ∧
      ((s.linkState l = .up ∨ s.linkState l = .draining) →
        ∃ u : State, exec c s = .next u.finish ∧ s.WentDown u l (some .lineLost))
    (decodeSymbol sym = .malformed → (s.link l).rx.malformedRun < 3 →
      exec (.symbolArrival l sym) s = .next (State.finish (s.modLink l fun k => { k with
        rx := { k.rx with
          malformedRun := k.rx.malformedRun + 1, assembly := none
          nakSent := k.rx.nakSent || k.rx.assembly.isSome }
        tx := { k.tx with nakRequest := k.tx.nakRequest || (k.rx.assembly.isSome && !k.rx.nakSent) } }))) ∧
    (decodeSymbol sym = .malformed → 3 ≤ (s.link l).rx.malformedRun → lost (.symbolArrival l sym)) ∧
    ((s.link l).rx.silenceTimer = .running 0 → lost (.silenceTimerExpiry l)) ∧
    ((s.link l).rx.silenceTimer ≠ .running 0 → exec (.silenceTimerExpiry l) s = .next s)

/-- Training: a HELLO that names 0, 255 or the part's own id puts the link in FAULT with ID_CLASH; any other records the peer,
and with seen-you set brings the link UP with the peer hold clear; an IDLE after the recording brings it UP with the IDLE's
hold flag, and before it changes nothing but the receiver's timer and run; every other symbol is ignored. -/
def Obligations.TrainingBringsLinkUp : Prop :=
  ∀ (s : State) (l : LinkId), s.inReset = false → (s.link l).config.mode = .normal → s.linkState l = .training →
    (s.link l).rx.alignment = .aligned → s.AckTimerLaw → s.SweepLaw →
    let timed := s.modLink l fun k => { k with
      rx := { k.rx with silenceTimer := .running k.config.silenceLimit, malformedRun := 0 } }
    (∀ id class16 seenYou,
      let p : Peer := { id, acceptance := if class16 = true then .sixteen else .eight }
      ((id = 0 ∨ id = 255 ∨ id = s.config.nodeId) →
        ∃ u : State, exec (.symbolArrival l (helloSymbol id class16 seenYou)) s = .next u.finish ∧
          s.WentDown u l (some .idClash)) ∧
      (id ≠ 0 → id ≠ 255 → id ≠ s.config.nodeId →
        (seenYou = false → exec (.symbolArrival l (helloSymbol id class16 seenYou)) s = .next (State.finish
          (timed.modLink l fun k => { k with control := { k.control with peer := some p } }))) ∧
        (seenYou = true → ∃ u : State,
          exec (.symbolArrival l (helloSymbol id class16 seenYou)) s = .next u.finish ∧ timed.CameUp u l p false))) ∧
    (∀ ack nextSend hold,
      ((s.link l).control.peer = none →
        exec (.symbolArrival l (idleSymbol ack nextSend hold)) s = .next timed.finish) ∧
      (∀ p, (s.link l).control.peer = some p → ∃ u : State,
        exec (.symbolArrival l (idleSymbol ack nextSend hold)) s = .next u.finish ∧ timed.CameUp u l p hold)) ∧
    (∀ sym, decodeSymbol sym ≠ .malformed → (∀ a n h, decodeSymbol sym ≠ .idle a n h) →
      (∀ i c y, decodeSymbol sym ≠ .hello i c y) → exec (.symbolArrival l sym) s = .next timed.finish)

/-- An IDLE or a HELLO in UP and DRAINING, a frame under assembly being damaged first. The IDLE's ack acts, then its
hold flag becomes the peer hold: the ack timer is as Table 3-5 says, the peer-hold-limit timer starts or stops with the
hold, and where the peer has built nothing this board has not taken and no record waits undecided, the ack is offered to
the horizon. A HELLO with seen-you set is ignored; with it clear the link enters FAULT with PEER_RESTART. For a stray
ack the run of head frames is the model's reading (log entry 6). -/
def Obligations.IdleAndHelloInUp : Prop :=
  ∀ (s : State) (l : LinkId), s.Hears l → s.AckTimerLaw → s.SweepLaw →
    (∀ ack nextSend hold gone rest, (s.link l).AckSplits ack gone rest →
      exec (.symbolArrival l (idleSymbol ack nextSend hold)) s = .next (State.finish (s.modLink l fun k => { k.heard with
        tx := { k.heard.acked gone rest with
          peerHold := hold
          ackTimer :=
            if rest.any Frame.sent = false then .stopped
            else if gone ≠ [] then
              (if hold then .paused k.config.ackTimeout else .running k.config.ackTimeout)
            else match k.tx.ackTimer with
              | .running n => if hold then .paused n else .running n
              | .paused n => if hold then .paused n else .running n
              | .stopped => .stopped }
        control := { k.control with
          peerHoldTimer :=
            if hold = k.tx.peerHold then k.control.peerHoldTimer
            else if hold then .running (k.config.peerHoldLimit * 1000) else .stopped }
        conflict :=
          if nextSend = k.rx.receiveExpected ∧
              (k.apply.queue = [] ∨ (k.apply.outstanding ≠ .none ∧ k.apply.queue.length = 1)) then
            k.horizonAfter ack
          else k.conflict }))) ∧
    (∀ id class16, exec (.symbolArrival l (helloSymbol id class16 true)) s = .next (State.finish
      (s.modLink l Link.heard))) ∧
    (∀ id class16, ∃ u : State, exec (.symbolArrival l (helloSymbol id class16 false)) s = .next u.finish ∧
      s.WentDown u l (some .peerRestart))

/-- A frame that arrives whole, symbol by symbol, at a settled UP or DRAINING link in NORMAL mode: its check agrees, and it is
classified. Expected and with room, it is taken: its records enter the apply queue with its seen value, receive-expected
advances, NAK-sent is cleared, the hold flag follows, and a record that became the head offers the seen value to the horizon.
Expected without room, and a duplicate, it changes nothing more; a gap asks for a NAK under the flag rule. -/
def Obligations.WholeFrameReceived : Prop :=
  ∀ (s : State) (l : LinkId) (f : Frame), s.Hears l → s.finish = s → (s.link l).WithinCapacity →
    f.check = frameCheck f.seq f.seen f.items → 1 ≤ f.items.length →
    f.items.length ≤ (s.link l).config.frameClass.items →
    (∀ t o m d, Record.write t o m d ∈ f.items → m ≠ 0) →
    let whole := runAll (f.symbols.map (Instr.symbolArrival l)) s
    let x := (s.link l).rx.receiveExpected
    let occupancy := (s.link l).apply.queue.length + f.items.length
    (f.seq = x → occupancy ≤ 32 → whole = some (State.finish (s.modLink l fun k => { k.heard with
      rx := { k.heard.rx with receiveExpected := f.seq + 1, nakSent := false }
      apply := { k.apply with
        queue := k.apply.queue ++ f.items.map fun r =>
          { record := r.received, seen := some f.seen, drainPoint := false }
        holdFlag := k.flagAt occupancy }
      conflict := if k.apply.queue = [] then k.horizonAfter f.seen else k.conflict }))) ∧
    ((f.seq = x ∧ 32 < occupancy ∨ before f.seq x = true) → whole = some (State.finish (s.modLink l Link.heard))) ∧
    (f.seq ≠ x → before f.seq x = false → whole = some (State.finish (s.modLink l fun k => { k.heard with
      rx := { k.heard.rx with nakSent := true }
      tx := { k.tx with nakRequest := k.tx.nakRequest || !k.rx.nakSent } })))

/-- What reaches a receiver but no whole frame. A receiver that does not examine the line, on a link in LOOP mode, DISABLED
or FAULT, changes nothing. A FRAME_START in UP or DRAINING damages a frame under assembly and begins a new one, the
running check over its payload, unless its count is above the class this part announces: then nothing is under assembly
and a NAK is asked for under the flag rule. A DATA symbol without a frame under assembly is stray. A record illegal in
place (a WRITE with lane mask 0, another record with lane-mask or offset bits) and a check symbol that differs from the
running check damage the frame: it is discarded, with a NAK under the flag rule. -/
def Obligations.DamagedFramesDiscarded : Prop :=
  (∀ (s : State) (l : LinkId) (sym : Symbol),
    ((s.link l).config.mode = .loop ∨ s.linkState l = .disabled ∨ s.linkState l = .fault) →
    exec (.symbolArrival l sym) s = .next s) ∧
  (∀ (s : State) (l : LinkId), s.Hears l →
    let heard (k : Link) : Link :=
      { k with rx := { k.rx with silenceTimer := .running k.config.silenceLimit, malformedRun := 0 } }
    let damaged (k : Link) : Link :=
      { heard k with
        rx := { (heard k).rx with assembly := none, nakSent := true }
        tx := { k.tx with nakRequest := k.tx.nakRequest || !k.rx.nakSent } }
    let answers (c : Instr) (f : Link → Link) : Prop := exec c s = .next (s.modLink l f).finish
    (∀ seq seen count, 1 ≤ count → count ≤ 16 →
      let payload := frameStartPayload seq seen count
      let start := Instr.symbolArrival l (symbolOf 0b01 payload)
      (((s.link l).config.frameClass = .sixteen ∨ count ≤ 8) → answers start fun k =>
        { heard k with
          rx := { (heard k).rx with
            assembly := some { seq, seen, count, records := [], part := none, check := crcPayload 0xFFFF payload }
            nakSent := k.rx.nakSent || k.rx.assembly.isSome }
          tx := { k.tx with nakRequest := k.tx.nakRequest || (k.rx.assembly.isSome && !k.rx.nakSent) } }) ∧
      ((s.link l).config.frameClass = .eight → 8 < count → answers start damaged)) ∧
    (∀ p : Payload,
      let data := Instr.symbolArrival l (symbolOf 0b10 p)
      ((s.link l).rx.assembly = none → answers data heard) ∧
      (∀ asm, (s.link l).rx.assembly = some asm → asm.part = none →
        (asm.records.length < asm.count → p.extractLsb' 14 2 = 0#2 → p.extractLsb' 4 4 = 0#4 → answers data damaged) ∧
        (asm.records.length < asm.count → p.extractLsb' 14 2 ≠ 0#2 → p.extractLsb' 0 8 ≠ 0#8 → answers data damaged) ∧
        (asm.count ≤ asm.records.length → p ≠ asm.check → answers data damaged))))

/-! ## Laws that every step keeps -/

/-- Every queue and table stays within its capacity, every configuration in its range, and every hold flag at the value its
occupancy asks for. -/
def Obligations.StepKeepsCapacities : Prop :=
  ∀ s t : State, s.WithinCapacity → s.ConfigLaw → s.HoldLaw → step s = .next t →
    t.WithinCapacity ∧ t.ConfigLaw ∧ t.HoldLaw

/-- INTN is asserted exactly while the event queue holds an event of a kind enabled in the interrupt mask or the overflow flag
is set: no step changes that. -/
def Obligations.StepKeepsIntnExact : Prop :=
  ∀ s t : State, s.IntnExact → step s = .next t → t.IntnExact

/-- The frames of each retransmit list stay consecutive from oldest to next-send with the sent ones first, each ack timer runs,
is paused or is stopped as the list and the peer hold say, and each receiver is ALIGNED, assembling and timed only where its
link's mode and state allow. -/
def Obligations.StepKeepsSequenceLaws : Prop :=
  ∀ s t : State, s.SequenceLaw → s.AckTimerLaw → s.ReceiverLaw → step s = .next t →
    t.SequenceLaw ∧ t.AckTimerLaw ∧ t.ReceiverLaw

/-- No two valid windows come to overlap, no tag comes to be exported or imported twice on a link, and every valid entry keeps
legal fields with the options and sides of its direction. -/
def Obligations.StepKeepsTableLaw : Prop :=
  ∀ s t : State, s.TableLaw → step s = .next t → t.TableLaw

/-- A window's export side is SWEEPING exactly while its link's engine is active for it, on an UP link; and a capture queue holds
at most one placeholder, while a read of its link's engine is outstanding at the port. -/
def Obligations.StepKeepsSweepLaws : Prop :=
  ∀ s t : State, s.TableLaw → s.SweepLaw → s.PlaceholderLaw → step s = .next t → t.SweepLaw ∧ t.PlaceholderLaw

/-- The conflict unit's laws, and the law of word offsets: the table is empty at JUNIOR and SELF rank and names no word twice,
only words of valid SHARED windows on its link; no numbered entry is before the horizon; next-send is at most 24 ahead of
it. -/
def Obligations.StepKeepsConflictLaws : Prop :=
  ∀ s t : State, s.TableLaw → s.SweepLaw → s.ConflictLaw → s.WordLaw → step s = .next t → t.ConflictLaw ∧ t.WordLaw

/-- The host port holds an access exactly while it is not IDLE, is IN_MEMORY exactly while it owns the outstanding transaction, and
one drain point exists exactly while it is in WAIT_DRAIN, on a WRITE record for its word. -/
def Obligations.StepKeepsHostLaw : Prop :=
  ∀ s t : State, s.HostLaw → step s = .next t → t.HostLaw

/-- Every law of the part holds in the state after reset. -/
def Obligations.LawsHoldAtReset : Prop :=
  State.reset.WithinCapacity ∧ State.reset.ConfigLaw ∧ State.reset.HoldLaw ∧ State.reset.IntnExact ∧
    State.reset.SequenceLaw ∧ State.reset.AckTimerLaw ∧ State.reset.ReceiverLaw ∧ State.reset.TableLaw ∧
    State.reset.SweepLaw ∧ State.reset.PlaceholderLaw ∧ State.reset.ConflictLaw ∧ State.reset.WordLaw ∧
    State.reset.HostLaw
end

