-- ==== Sys2Proof/Laws/State.lean ====
section
/-! SUPPORT. One lemma per field per update of the state, so that no later proof unfolds a record update. -/

namespace Sys2Proof.Machine

/-! ## Changing a link -/

@[simp] theorem State.modLink_pending (s : State) (l : LinkId) (f : Link → Link) :
    (s.modLink l f).pending = s.pending := by cases l <;> rfl
@[simp] theorem State.modLink_inReset (s : State) (l : LinkId) (f : Link → Link) :
    (s.modLink l f).inReset = s.inReset := by cases l <;> rfl
@[simp] theorem State.modLink_config (s : State) (l : LinkId) (f : Link → Link) :
    (s.modLink l f).config = s.config := by cases l <;> rfl
@[simp] theorem State.modLink_windows (s : State) (l : LinkId) (f : Link → Link) :
    (s.modLink l f).windows = s.windows := by cases l <;> rfl
@[simp] theorem State.modLink_host (s : State) (l : LinkId) (f : Link → Link) :
    (s.modLink l f).host = s.host := by cases l <;> rfl
@[simp] theorem State.modLink_port (s : State) (l : LinkId) (f : Link → Link) :
    (s.modLink l f).port = s.port := by cases l <;> rfl
@[simp] theorem State.modLink_applyPointer (s : State) (l : LinkId) (f : Link → Link) :
    (s.modLink l f).applyPointer = s.applyPointer := by cases l <;> rfl
@[simp] theorem State.modLink_sweepPointer (s : State) (l : LinkId) (f : Link → Link) :
    (s.modLink l f).sweepPointer = s.sweepPointer := by cases l <;> rfl
@[simp] theorem State.modLink_events (s : State) (l : LinkId) (f : Link → Link) :
    (s.modLink l f).events = s.events := by cases l <;> rfl
@[simp] theorem State.modLink_overflow (s : State) (l : LinkId) (f : Link → Link) :
    (s.modLink l f).overflow = s.overflow := by cases l <;> rfl
@[simp] theorem State.modLink_intn (s : State) (l : LinkId) (f : Link → Link) :
    (s.modLink l f).intn = s.intn := by cases l <;> rfl
@[simp] theorem State.modLink_response (s : State) (l : LinkId) (f : Link → Link) :
    (s.modLink l f).response = s.response := by cases l <;> rfl
@[simp] theorem State.modLink_spi (s : State) (l : LinkId) (f : Link → Link) :
    (s.modLink l f).spi = s.spi := by cases l <;> rfl
@[simp] theorem State.modLink_window (s : State) (l : LinkId) (f : Link → Link) (i' : Index) :
    (s.modLink l f).window i' = s.window i' := by cases l <;> rfl

/-- The link changed is the change of the link as it was. -/
@[simp] theorem State.modLink_link (s : State) (l : LinkId) (f : Link → Link) :
    (s.modLink l f).link l = f (s.link l) := by
  cases l <;> rfl

/-- A change of one link leaves the other. -/
@[simp] theorem State.modLink_link_other (s : State) (l : LinkId) (f : Link → Link) :
    (s.modLink l f).link (otherLink l) = s.link (otherLink l) := by cases l <;> rfl

theorem State.modLink_link_ne (s : State) {l l' : LinkId} (h : l' ≠ l) (f : Link → Link) :
    (s.modLink l f).link l' = s.link l' := by
  cases l <;> cases l' <;> first | rfl | exact absurd rfl h

@[simp] theorem State.modLink_linkState (s : State) (l : LinkId) (f : Link → Link) :
    (s.modLink l f).linkState l = (f (s.link l)).control.state := by cases l <;> rfl

/-- Two changes of one link are one. -/
@[simp] theorem State.modLink_modLink (s : State) (l : LinkId) (f g : Link → Link) :
    (s.modLink l f).modLink l g = s.modLink l (fun k => g (f k)) := by cases l <;> rfl

/-- A change that leaves the link as it was changes nothing. -/
@[simp] theorem State.modLink_id (s : State) (l : LinkId) : (s.modLink l fun k => k) = s := by cases l <;> rfl

/-- Changes that agree on the link as it stands agree. -/
theorem State.modLink_congr {s : State} {l : LinkId} {f g : Link → Link} (h : f (s.link l) = g (s.link l)) :
    s.modLink l f = s.modLink l g := by cases l <;> (simp only [State.modLink, State.link] at *; rw [h])

/-! ## Changing a window entry -/

@[simp] theorem State.setWindow_pending (s : State) (i : Index) (e : Option Window) :
    (s.setWindow i e).pending = s.pending := rfl
@[simp] theorem State.setWindow_inReset (s : State) (i : Index) (e : Option Window) :
    (s.setWindow i e).inReset = s.inReset := rfl
@[simp] theorem State.setWindow_config (s : State) (i : Index) (e : Option Window) :
    (s.setWindow i e).config = s.config := rfl
@[simp] theorem State.setWindow_host (s : State) (i : Index) (e : Option Window) :
    (s.setWindow i e).host = s.host := rfl
@[simp] theorem State.setWindow_port (s : State) (i : Index) (e : Option Window) :
    (s.setWindow i e).port = s.port := rfl
@[simp] theorem State.setWindow_applyPointer (s : State) (i : Index) (e : Option Window) :
    (s.setWindow i e).applyPointer = s.applyPointer := rfl
@[simp] theorem State.setWindow_sweepPointer (s : State) (i : Index) (e : Option Window) :
    (s.setWindow i e).sweepPointer = s.sweepPointer := rfl
@[simp] theorem State.setWindow_events (s : State) (i : Index) (e : Option Window) :
    (s.setWindow i e).events = s.events := rfl
@[simp] theorem State.setWindow_overflow (s : State) (i : Index) (e : Option Window) :
    (s.setWindow i e).overflow = s.overflow := rfl
@[simp] theorem State.setWindow_intn (s : State) (i : Index) (e : Option Window) :
    (s.setWindow i e).intn = s.intn := rfl
@[simp] theorem State.setWindow_response (s : State) (i : Index) (e : Option Window) :
    (s.setWindow i e).response = s.response := rfl
@[simp] theorem State.setWindow_spi (s : State) (i : Index) (e : Option Window) : (s.setWindow i e).spi = s.spi := rfl
@[simp] theorem State.setWindow_link (s : State) (i : Index) (e : Option Window) (l' : LinkId) :
    (s.setWindow i e).link l' = s.link l' := by cases l' <;> rfl
@[simp] theorem State.setWindow_linkState (s : State) (i : Index) (e : Option Window) (l' : LinkId) :
    (s.setWindow i e).linkState l' = s.linkState l' := by
  simp [State.linkState]

/-- The entry set reads back. -/
@[simp] theorem State.setWindow_window (s : State) (i : Index) (e : Option Window) :
    (s.setWindow i e).window i = e := by
  simp [State.setWindow, State.window]

/-- Every other entry is kept. -/
theorem State.setWindow_window_ne (s : State) {i j : Index} (h : j ≠ i) (e : Option Window) :
    (s.setWindow i e).window j = s.window j := by
  have : (i : Nat) ≠ j := fun e => h (Fin.ext e.symm)
  simp [State.setWindow, State.window, this]

@[simp] theorem State.modWindow_pending (s : State) (i : Index) (f : Window → Window) :
    (s.modWindow i f).pending = s.pending := rfl
@[simp] theorem State.modWindow_inReset (s : State) (i : Index) (f : Window → Window) :
    (s.modWindow i f).inReset = s.inReset := rfl
@[simp] theorem State.modWindow_config (s : State) (i : Index) (f : Window → Window) :
    (s.modWindow i f).config = s.config := rfl
@[simp] theorem State.modWindow_host (s : State) (i : Index) (f : Window → Window) :
    (s.modWindow i f).host = s.host := rfl
@[simp] theorem State.modWindow_port (s : State) (i : Index) (f : Window → Window) :
    (s.modWindow i f).port = s.port := rfl
@[simp] theorem State.modWindow_applyPointer (s : State) (i : Index) (f : Window → Window) :
    (s.modWindow i f).applyPointer = s.applyPointer := rfl
@[simp] theorem State.modWindow_sweepPointer (s : State) (i : Index) (f : Window → Window) :
    (s.modWindow i f).sweepPointer = s.sweepPointer := rfl
@[simp] theorem State.modWindow_events (s : State) (i : Index) (f : Window → Window) :
    (s.modWindow i f).events = s.events := rfl
@[simp] theorem State.modWindow_overflow (s : State) (i : Index) (f : Window → Window) :
    (s.modWindow i f).overflow = s.overflow := rfl
@[simp] theorem State.modWindow_intn (s : State) (i : Index) (f : Window → Window) :
    (s.modWindow i f).intn = s.intn := rfl
@[simp] theorem State.modWindow_response (s : State) (i : Index) (f : Window → Window) :
    (s.modWindow i f).response = s.response := rfl
@[simp] theorem State.modWindow_spi (s : State) (i : Index) (f : Window → Window) :
    (s.modWindow i f).spi = s.spi := rfl
@[simp] theorem State.modWindow_link (s : State) (i : Index) (f : Window → Window) (l' : LinkId) :
    (s.modWindow i f).link l' = s.link l' := by cases l' <;> rfl
@[simp] theorem State.modWindow_linkState (s : State) (i : Index) (f : Window → Window) (l' : LinkId) :
    (s.modWindow i f).linkState l' = s.linkState l' := by
  simp [State.linkState]

@[simp] theorem State.modWindow_window (s : State) (i : Index) (f : Window → Window) :
    (s.modWindow i f).window i = (s.window i).map f := by simp [State.modWindow]

theorem State.modWindow_window_ne (s : State) {i j : Index} (h : j ≠ i) (f : Window → Window) :
    (s.modWindow i f).window j = s.window j := by simp [State.modWindow, State.setWindow_window_ne _ h]

/-- A change of a valid entry sets that entry. -/
theorem State.modWindow_some {s : State} {i : Index} {w : Window} (h : s.window i = some w) (f : Window → Window) :
    s.modWindow i f = { s with windows := s.windows.set i (some (f w)) } := by
  simp [State.modWindow, State.setWindow, h]

/-! ## Offering an event -/

/-- An event changes nothing but the event queue and the overflow flag. -/
theorem State.raise_eq (s : State) (e : Event) :
    s.raise e = { s with events := (s.raise e).events, overflow := (s.raise e).overflow } := by
  unfold State.raise
  split
  · rfl
  · split <;> rfl

@[simp] theorem State.raise_pending (s : State) (e : Event) :
    (s.raise e).pending = s.pending := by rw [State.raise_eq]
@[simp] theorem State.raise_inReset (s : State) (e : Event) :
    (s.raise e).inReset = s.inReset := by rw [State.raise_eq]
@[simp] theorem State.raise_config (s : State) (e : Event) : (s.raise e).config = s.config := by rw [State.raise_eq]
@[simp] theorem State.raise_windows (s : State) (e : Event) :
    (s.raise e).windows = s.windows := by rw [State.raise_eq]
@[simp] theorem State.raise_host (s : State) (e : Event) : (s.raise e).host = s.host := by rw [State.raise_eq]
@[simp] theorem State.raise_port (s : State) (e : Event) : (s.raise e).port = s.port := by rw [State.raise_eq]
@[simp] theorem State.raise_applyPointer (s : State) (e : Event) :
    (s.raise e).applyPointer = s.applyPointer := by rw [State.raise_eq]
@[simp] theorem State.raise_sweepPointer (s : State) (e : Event) :
    (s.raise e).sweepPointer = s.sweepPointer := by rw [State.raise_eq]
@[simp] theorem State.raise_intn (s : State) (e : Event) : (s.raise e).intn = s.intn := by rw [State.raise_eq]
@[simp] theorem State.raise_response (s : State) (e : Event) :
    (s.raise e).response = s.response := by rw [State.raise_eq]
@[simp] theorem State.raise_spi (s : State) (e : Event) : (s.raise e).spi = s.spi := by rw [State.raise_eq]
@[simp] theorem State.raise_link (s : State) (e : Event) (l' : LinkId) :
    (s.raise e).link l' = s.link l' := by rw [State.raise_eq]; cases l' <;> rfl
@[simp] theorem State.raise_linkState (s : State) (e : Event) (l' : LinkId) :
    (s.raise e).linkState l' = s.linkState l' := by
  simp [State.linkState]
@[simp] theorem State.raise_window (s : State) (e : Event) (i' : Index) :
    (s.raise e).window i' = s.window i' := by rw [State.raise_eq]; rfl

/-- An event and a change of a link pass each other. -/
theorem State.raise_modLink (s : State) (e : Event) (l : LinkId) (f : Link → Link) :
    (s.raise e).modLink l f = (s.modLink l f).raise e := by
  unfold State.raise
  rw [State.modLink_events]
  split
  · cases l <;> rfl
  · split <;> cases l <;> rfl

/-- An event and a new window table pass each other. -/
theorem State.raise_withWindows (s : State) (e : Event) (v : Vector (Option Window) 16) :
    ({ s with windows := v } : State).raise e = { s.raise e with windows := v } := by
  unfold State.raise
  simp only []
  split
  · rfl
  · split <;> rfl

/-! ## INTN -/

@[simp] theorem State.driveIntn_pending (s : State) : (s.driveIntn).pending = s.pending := rfl
@[simp] theorem State.driveIntn_inReset (s : State) : (s.driveIntn).inReset = s.inReset := rfl
@[simp] theorem State.driveIntn_config (s : State) : (s.driveIntn).config = s.config := rfl
@[simp] theorem State.driveIntn_windows (s : State) : (s.driveIntn).windows = s.windows := rfl
@[simp] theorem State.driveIntn_host (s : State) : (s.driveIntn).host = s.host := rfl
@[simp] theorem State.driveIntn_port (s : State) : (s.driveIntn).port = s.port := rfl
@[simp] theorem State.driveIntn_applyPointer (s : State) : (s.driveIntn).applyPointer = s.applyPointer := rfl
@[simp] theorem State.driveIntn_sweepPointer (s : State) : (s.driveIntn).sweepPointer = s.sweepPointer := rfl
@[simp] theorem State.driveIntn_events (s : State) : (s.driveIntn).events = s.events := rfl
@[simp] theorem State.driveIntn_overflow (s : State) : (s.driveIntn).overflow = s.overflow := rfl
@[simp] theorem State.driveIntn_response (s : State) : (s.driveIntn).response = s.response := rfl
@[simp] theorem State.driveIntn_spi (s : State) : (s.driveIntn).spi = s.spi := rfl
@[simp] theorem State.driveIntn_link (s : State) (l' : LinkId) :
    (s.driveIntn).link l' = s.link l' := by cases l' <;> rfl
@[simp] theorem State.driveIntn_linkState (s : State) (l' : LinkId) :
    (s.driveIntn).linkState l' = s.linkState l' := by
  simp [State.linkState]
@[simp] theorem State.driveIntn_window (s : State) (i' : Index) : (s.driveIntn).window i' = s.window i' := rfl

@[simp] theorem State.driveIntn_intn (s : State) : s.driveIntn.intn = s.intnAsserted := rfl

/-! ## The host port -/

@[simp] theorem State.claimHost_pending (s : State) (h : Handling) : (s.claimHost h).pending = s.pending := rfl
@[simp] theorem State.claimHost_inReset (s : State) (h : Handling) : (s.claimHost h).inReset = s.inReset := rfl
@[simp] theorem State.claimHost_config (s : State) (h : Handling) : (s.claimHost h).config = s.config := rfl
@[simp] theorem State.claimHost_windows (s : State) (h : Handling) : (s.claimHost h).windows = s.windows := rfl
@[simp] theorem State.claimHost_port (s : State) (h : Handling) : (s.claimHost h).port = s.port := rfl
@[simp] theorem State.claimHost_applyPointer (s : State) (h : Handling) :
    (s.claimHost h).applyPointer = s.applyPointer := rfl
@[simp] theorem State.claimHost_sweepPointer (s : State) (h : Handling) :
    (s.claimHost h).sweepPointer = s.sweepPointer := rfl
@[simp] theorem State.claimHost_events (s : State) (h : Handling) : (s.claimHost h).events = s.events := rfl
@[simp] theorem State.claimHost_overflow (s : State) (h : Handling) : (s.claimHost h).overflow = s.overflow := rfl
@[simp] theorem State.claimHost_intn (s : State) (h : Handling) : (s.claimHost h).intn = s.intn := rfl
@[simp] theorem State.claimHost_response (s : State) (h : Handling) : (s.claimHost h).response = s.response := rfl
@[simp] theorem State.claimHost_spi (s : State) (h : Handling) : (s.claimHost h).spi = s.spi := rfl
@[simp] theorem State.claimHost_link (s : State) (h : Handling) (l' : LinkId) :
    (s.claimHost h).link l' = s.link l' := by cases l' <;> rfl
@[simp] theorem State.claimHost_linkState (s : State) (h : Handling) (l' : LinkId) :
    (s.claimHost h).linkState l' = s.linkState l' := by
  simp [State.linkState]
@[simp] theorem State.claimHost_window (s : State) (h : Handling) (i' : Index) :
    (s.claimHost h).window i' = s.window i' := rfl

@[simp] theorem State.completeHost_pending (s : State) (fault : Bool) (data : Option Word) :
    (s.completeHost fault data).pending = s.pending := rfl
@[simp] theorem State.completeHost_inReset (s : State) (fault : Bool) (data : Option Word) :
    (s.completeHost fault data).inReset = s.inReset := rfl
@[simp] theorem State.completeHost_config (s : State) (fault : Bool) (data : Option Word) :
    (s.completeHost fault data).config = s.config := rfl
@[simp] theorem State.completeHost_windows (s : State) (fault : Bool) (data : Option Word) :
    (s.completeHost fault data).windows = s.windows := rfl
@[simp] theorem State.completeHost_port (s : State) (fault : Bool) (data : Option Word) :
    (s.completeHost fault data).port = s.port := rfl
@[simp] theorem State.completeHost_applyPointer (s : State) (fault : Bool) (data : Option Word) :
    (s.completeHost fault data).applyPointer = s.applyPointer := rfl
@[simp] theorem State.completeHost_sweepPointer (s : State) (fault : Bool) (data : Option Word) :
    (s.completeHost fault data).sweepPointer = s.sweepPointer := rfl
@[simp] theorem State.completeHost_events (s : State) (fault : Bool) (data : Option Word) :
    (s.completeHost fault data).events = s.events := rfl
@[simp] theorem State.completeHost_overflow (s : State) (fault : Bool) (data : Option Word) :
    (s.completeHost fault data).overflow = s.overflow := rfl
@[simp] theorem State.completeHost_intn (s : State) (fault : Bool) (data : Option Word) :
    (s.completeHost fault data).intn = s.intn := rfl
@[simp] theorem State.completeHost_response (s : State) (fault : Bool) (data : Option Word) :
    (s.completeHost fault data).response = s.response := rfl
@[simp] theorem State.completeHost_spi (s : State) (fault : Bool) (data : Option Word) :
    (s.completeHost fault data).spi = s.spi := rfl
@[simp] theorem State.completeHost_link (s : State) (fault : Bool) (data : Option Word) (l' : LinkId) :
    (s.completeHost fault data).link l' = s.link l' := by cases l' <;> rfl
@[simp] theorem State.completeHost_linkState (s : State) (fault : Bool) (data : Option Word) (l' : LinkId) :
    (s.completeHost fault data).linkState l' = s.linkState l' := by
  simp [State.linkState]
@[simp] theorem State.completeHost_window (s : State) (fault : Bool) (data : Option Word) (i' : Index) :
    (s.completeHost fault data).window i' = s.window i' := rfl

@[simp] theorem State.claimHost_host (s : State) (h : Handling) : (s.claimHost h).host =
    { s.host with phase := .claiming, handling := some h, holdTimer := .stopped } := rfl
@[simp] theorem State.completeHost_host (s : State) (fault : Bool) (data : Option Word) :
    (s.completeHost fault data).host =
    { HostPort.reset with completion := some { fault, data } } := rfl

/-! ## The management port -/

@[simp] theorem State.markTaken_pending (s : State) :
    (s.markTaken).pending = s.pending := by unfold State.markTaken; split <;> rfl
@[simp] theorem State.markTaken_inReset (s : State) :
    (s.markTaken).inReset = s.inReset := by unfold State.markTaken; split <;> rfl
@[simp] theorem State.markTaken_config (s : State) :
    (s.markTaken).config = s.config := by unfold State.markTaken; split <;> rfl
@[simp] theorem State.markTaken_windows (s : State) :
    (s.markTaken).windows = s.windows := by unfold State.markTaken; split <;> rfl
@[simp] theorem State.markTaken_host (s : State) :
    (s.markTaken).host = s.host := by unfold State.markTaken; split <;> rfl
@[simp] theorem State.markTaken_port (s : State) :
    (s.markTaken).port = s.port := by unfold State.markTaken; split <;> rfl
@[simp] theorem State.markTaken_applyPointer (s : State) :
    (s.markTaken).applyPointer = s.applyPointer := by unfold State.markTaken; split <;> rfl
@[simp] theorem State.markTaken_sweepPointer (s : State) :
    (s.markTaken).sweepPointer = s.sweepPointer := by unfold State.markTaken; split <;> rfl
@[simp] theorem State.markTaken_events (s : State) :
    (s.markTaken).events = s.events := by unfold State.markTaken; split <;> rfl
@[simp] theorem State.markTaken_overflow (s : State) :
    (s.markTaken).overflow = s.overflow := by unfold State.markTaken; split <;> rfl
@[simp] theorem State.markTaken_intn (s : State) :
    (s.markTaken).intn = s.intn := by unfold State.markTaken; split <;> rfl
@[simp] theorem State.markTaken_response (s : State) :
    (s.markTaken).response = s.response := by unfold State.markTaken; split <;> rfl
@[simp] theorem State.markTaken_link (s : State) (l' : LinkId) : (s.markTaken).link l' = s.link l' := by
  unfold State.markTaken; split <;> cases l' <;> rfl
@[simp] theorem State.markTaken_linkState (s : State) (l' : LinkId) :
    (s.markTaken).linkState l' = s.linkState l' := by
  simp [State.linkState]
@[simp] theorem State.markTaken_window (s : State) (i' : Index) :
    (s.markTaken).window i' = s.window i' := by unfold State.markTaken; split <;> rfl

@[simp] theorem State.respond_pending (s : State) (code : Byte) (status : Status) (data : List Byte) :
    (s.respond code status data).pending = s.pending := by
  unfold State.respond State.markTaken; split <;> rfl
@[simp] theorem State.respond_inReset (s : State) (code : Byte) (status : Status) (data : List Byte) :
    (s.respond code status data).inReset = s.inReset := by
  unfold State.respond State.markTaken; split <;> rfl
@[simp] theorem State.respond_config (s : State) (code : Byte) (status : Status) (data : List Byte) :
    (s.respond code status data).config = s.config := by
  unfold State.respond State.markTaken; split <;> rfl
@[simp] theorem State.respond_windows (s : State) (code : Byte) (status : Status) (data : List Byte) :
    (s.respond code status data).windows = s.windows := by
  unfold State.respond State.markTaken; split <;> rfl
@[simp] theorem State.respond_host (s : State) (code : Byte) (status : Status) (data : List Byte) :
    (s.respond code status data).host = s.host := by
  unfold State.respond State.markTaken; split <;> rfl
@[simp] theorem State.respond_port (s : State) (code : Byte) (status : Status) (data : List Byte) :
    (s.respond code status data).port = s.port := by
  unfold State.respond State.markTaken; split <;> rfl
@[simp] theorem State.respond_applyPointer (s : State) (code : Byte) (status : Status) (data : List Byte) :
    (s.respond code status data).applyPointer = s.applyPointer := by
  unfold State.respond State.markTaken; split <;> rfl
@[simp] theorem State.respond_sweepPointer (s : State) (code : Byte) (status : Status) (data : List Byte) :
    (s.respond code status data).sweepPointer = s.sweepPointer := by
  unfold State.respond State.markTaken; split <;> rfl
@[simp] theorem State.respond_events (s : State) (code : Byte) (status : Status) (data : List Byte) :
    (s.respond code status data).events = s.events := by
  unfold State.respond State.markTaken; split <;> rfl
@[simp] theorem State.respond_overflow (s : State) (code : Byte) (status : Status) (data : List Byte) :
    (s.respond code status data).overflow = s.overflow := by
  unfold State.respond State.markTaken; split <;> rfl
@[simp] theorem State.respond_intn (s : State) (code : Byte) (status : Status) (data : List Byte) :
    (s.respond code status data).intn = s.intn := by
  unfold State.respond State.markTaken; split <;> rfl
@[simp] theorem State.respond_link (s : State) (code : Byte) (status : Status) (data : List Byte) (l' : LinkId) :
    (s.respond code status data).link l' = s.link l' := by
  unfold State.respond State.markTaken; split <;> cases l' <;> rfl
@[simp] theorem State.respond_linkState (s : State) (code : Byte) (status : Status) (data : List Byte) (l' : LinkId) :
    (s.respond code status data).linkState l' = s.linkState l' := by
  simp [State.linkState]
@[simp] theorem State.respond_window (s : State) (code : Byte) (status : Status) (data : List Byte) (i' : Index) :
    (s.respond code status data).window i' = s.window i' := by
  unfold State.respond State.markTaken; split <;> rfl

@[simp] theorem State.respond_response (s : State) (code : Byte) (status : Status) (data : List Byte) :
    (s.respond code status data).response = some { code, status, data } := rfl

end Sys2Proof.Machine
end

