-- ==== Sys2Proof/Laws/Ops.lean ====
section
/-! SUPPORT. One lemma for each shared operation of the window table, the management port and the queues: all that the
operation can do, so that a later proof cites it and does not unfold the operation. -/

namespace Sys2Proof.Machine

/-! ## Taking a request, and happenings -/

theorem State.take_of_taking {s : State} {out : Option Response} (h : s.Taking out) (act : State → State) :
    s.take act = .next (act s) := by simp [State.take, State.canTake, h.running, h.selected]

/-- A response while a transaction is selected: the request is taken and the buffer holds the response. -/
theorem State.respond_of_active {s : State} {out : Option Response} {b : Bool} (h : s.spi = .active out b) (c : Byte)
    (st : Status) (d : List Byte) : s.respond c st d = s.answered out c st d := by
  simp [State.respond, State.markTaken, h, State.answered]

theorem State.respond_of_taking {s : State} {out : Option Response} (h : s.Taking out) (c : Byte) (st : Status)
    (d : List Byte) : s.respond c st d = s.answered out c st d := State.respond_of_active h.selected c st d

theorem State.happening_of {s : State} {can : Bool} (hr : s.inReset = false) (hc : can = true)
    (act : State → State) : s.happening can act = .next (act s).finish := by simp [State.happening, hr, hc]

theorem State.happening_not {s : State} {can : Bool} (hc : can = false) (act : State → State) :
    s.happening can act = .next s := by simp [State.happening, hc]

/-- A request that bytes spell has, as its own command, the effect of the request (R153, R166). -/
theorem exec_takeRequest {bytes : List Byte} {c : Instr} (h : takeRequest bytes = some c) (s : State) :
    exec c s = s.take (·.request c) := by
  cases bytes with
  | nil => simp [takeRequest] at h
  | cons code fields =>
    simp only [takeRequest, requestOf] at h
    split at h <;> (try split at h) <;> simp at h <;> subst h <;> rfl

@[simp] theorem wordBytes_length (n w : Nat) : (wordBytes n w).length = n := by
  induction n generalizing w with
  | zero => rfl
  | succ n ih => simp [wordBytes, ih]

/-- A word without a complete byte, such as the table's rows have, spells no command. -/
theorem decodeTableWord_of_lt {nbits : Nat} (h : nbits < 8) (w : Nat) : decodeTableWord nbits w = none := by
  simp [decodeTableWord, Nat.div_eq_of_lt h, wordBytes, takeRequest]

/-! ## Timers -/

@[simp] theorem Timer.hasRunOut_iff (t : Timer) : t.hasRunOut = true ↔ t = .running 0 := by
  rcases t with _ | (_ | n) | n <;> simp [Timer.hasRunOut]

/-- A happening that needs a timer run out does not occur while it has not. -/
theorem State.happening_not_runOut {s : State} {t : Timer} (h : t ≠ .running 0) (b : Bool) (act : State → State) :
    s.happening (b && t.hasRunOut) act = .next s :=
  State.happening_not (by simp [Bool.eq_false_iff.2 fun hr => h (t.hasRunOut_iff.1 hr)]) act

/-! ## Operands -/

theorem linkOf_linkByte (l : LinkId) : linkOf (linkByte l) = some l := by cases l <;> decide

theorem linkOf_eq_none {b : Byte} (h : 1 < b.toNat) : linkOf b = none := by
  simp only [linkOf]
  split <;> simp_all

theorem indexOf_eq_none {b : Byte} (h : 15 < b.toNat) : indexOf b = none := by
  simp [indexOf]
  omega

theorem indexOf_eq_some {b : Byte} {i : Index} (h : b.toNat = i.val) : indexOf b = some i := by simp [indexOf, h]

theorem LinkState.carrying_iff (x : LinkState) : x.carrying = true ↔ (x = .up ∨ x = .draining) := by
  cases x <;> simp [LinkState.carrying]

theorem LinkState.running_of_carrying {x : LinkState} (h : x = .up ∨ x = .draining) : x.running = true := by
  rcases h with h | h <;> rw [h] <;> rfl

/-! ## Window table -/

theorem mem_allIndices (i : Index) : i ∈ allIndices := by revert i; decide

/-- A change of every valid entry. -/
theorem State.modWindows_window (f : Window → Window) (s : State) (i : Index) :
    (s.modWindows f).window i = (s.window i).map f := by
  have key : ∀ (is : List Index) (s : State), is.Nodup →
      (is.foldl (fun s i => s.modWindow i f) s).window i = if i ∈ is then (s.window i).map f else s.window i := by
    intro is
    induction is with
    | nil => intro s _; simp
    | cons x xs ih =>
      intro s hn
      rw [List.foldl_cons, ih _ (List.nodup_cons.1 hn).2]
      by_cases hix : i = x
      · subst hix; simp [(List.nodup_cons.1 hn).1]
      · simp [hix, State.modWindow_window_ne _ hix]
  unfold State.modWindows
  rw [key _ _ (by decide), if_pos (mem_allIndices i)]

/-- A change of every valid entry changes nothing but the table. -/
theorem State.modWindows_eq (f : Window → Window) (s : State) :
    s.modWindows f = { s with windows := (s.modWindows f).windows } := by
  have key : ∀ (is : List Index) (s : State), (is.foldl (fun s i => s.modWindow i f) s) =
      { s with windows := (is.foldl (fun s i => s.modWindow i f) s).windows } := by
    intro is
    induction is with
    | nil => intro s; rfl
    | cons x xs ih => intro s; rw [List.foldl_cons, ih]; rfl
  exact key _ _

/-- The address lookup finds the one valid window whose region holds the word (R10). -/
theorem State.windowAt_of {s : State} {addr : WordAddr} {i : Index} {w : Window} (ht : s.TableLaw)
    (hw : s.window i = some w) (h1 : w.base ≤ 4 * addr.toNat) (h2 : 4 * addr.toNat < w.base + w.size) :
    s.windowAt addr = some i := by
  have hany : (s.window i).any (·.holds addr) = true := by simp [hw, Window.holds, h1, h2]
  unfold State.windowAt
  rcases hf : allIndices.find? (fun i => (s.window i).any (·.holds addr)) with _ | j
  · rw [List.find?_eq_none] at hf
    exact absurd hany (hf i (mem_allIndices i))
  · have hj := List.find?_some hf
    by_contra hne
    have hij : j ≠ i := fun e => hne (by rw [hf, e])
    rcases hwj : s.window j with _ | v
    · simp [hwj] at hj
    · simp [hwj, Window.holds] at hj
      have hd := ht.disjoint j i hij v hwj w hw
      simp [Window.overlaps] at hd
      have : w.base ≥ v.base + v.size ∨ v.base ≥ w.base + w.size := by
        by_contra hh
        push Not at hh
        have := hd (by omega)
        omega
      omega

/-- The tag lookup finds the one valid importing window of the tag on the link (R11). -/
theorem State.importOf_of {s : State} {l : LinkId} {t : Tag} {i : Index} {w : Window} (ht : s.TableLaw)
    (hw : s.window i = some w) (h1 : w.link = l) (h2 : w.importSide.isSome = true) (h3 : w.tag = t) :
    s.importOf l t = some i := by
  unfold State.importOf
  rcases hf : allIndices.find? (fun i =>
      (s.window i).any fun w => decide (w.link = l) && decide (w.tag = t) && w.importSide.isSome) with _ | j
  · rw [List.find?_eq_none] at hf
    have := hf i (mem_allIndices i)
    simp [hw, h1, h2, h3] at this
  · have hj := List.find?_some hf
    by_contra hne
    have hij : j ≠ i := fun e => hne (by rw [hf, e])
    rcases hwj : s.window j with _ | v
    · simp [hwj] at hj
    · simp [hwj] at hj
      have := ht.importTags j i hij v hwj w hw (by rw [hj.1.1, h1]) (by rw [hj.1.2, h3])
      rw [← (ht.legal j v hwj).importSide, ← (ht.legal i w hw).importSide, h2, hj.2] at this
      simp at this

theorem State.importOf_none {s : State} {l : LinkId} {t : Tag}
    (h : ∀ i, ∀ w ∈ s.window i, w.link = l → w.importSide.isSome = true → w.tag ≠ t) : s.importOf l t = none := by
  unfold State.importOf
  rw [List.find?_eq_none]
  intro i _
  rcases hw : s.window i with _ | w
  · simp
  · have := h i w hw
    simp only [Option.any_some, Bool.and_eq_true, decide_eq_true_eq, not_and]
    rintro ⟨h1, h2⟩ h3
    exact this h1 h3 h2

theorem State.noticeOwed_iff (s : State) (l : LinkId) :
    s.noticeOwed l = true ↔ ∃ i, ∃ w ∈ s.window i, w.link = l ∧ w.notice = true := by
  simp only [State.noticeOwed, List.any_eq_true]
  constructor
  · rintro ⟨i, _, h⟩
    rcases hw : s.window i with _ | w
    · simp [hw] at h
    · simp [hw] at h
      exact ⟨i, w, hw, h⟩
  · rintro ⟨i, w, hw, h⟩
    exact ⟨i, mem_allIndices i, by rw [hw]; simpa using h⟩

/-! ## Notices and sides -/

theorem withWindows_modLink (s : State) (l : LinkId) (f : Link → Link) (v : Vector (Option Window) 16) :
    ({ s with windows := v } : State).modLink l f = { s.modLink l f with windows := v } := by cases l <;> rfl

theorem withWindows_linkState (s : State) (l : LinkId) (v : Vector (Option Window) 16) :
    ({ s with windows := v } : State).linkState l = s.linkState l := by cases l <;> rfl

theorem withWindows_set_window (s : State) (i : Index) (v : Vector (Option Window) 16) (w : Option Window) :
    ({ s with windows := Vector.set v i w } : State).window i = w := by simp [State.window]

theorem windows_set_set (v : Vector (Option Window) 16) (i : Index) (a b : Option Window) :
    (v.set i a).set i b = v.set i b := by
  apply Vector.ext
  intro j hj
  simp [Vector.getElem_set]

/-- Setting the notice of a window with an export side: flush due follows where it was clear (R14, R28). -/
theorem State.setNotice_some {s : State} {i : Index} {w : Window} (h : s.window i = some w)
    (he : w.exportSide.isSome = true) :
    s.setNotice i =
      { (s.modLink w.link fun k => { k with capture := { k.capture with flushDue := k.capture.flushDue || !w.notice } })
        with windows := s.windows.set i (some { w with notice := true }) } := by
  simp only [State.setNotice, h, he, Bool.true_and]
  cases hn : w.notice
  · simp [State.modWindow_some h, State.setFlushDue, withWindows_modLink]
  · simp
    have h2 : s.windows.set i (some { w with notice := true }) = s.windows := by
      have h' : s.windows[i] = some w := h
      apply Vector.ext
      intro j hj
      simp [Vector.getElem_set]
      intro hij
      subst hij
      rw [← hn]
      simpa using h'.symm
    rw [h2]

/-- The abort of the active sweep of an UP link, for every cause but WINDOW_CLEARED (R113). -/
theorem State.abortSweep_up {s : State} {l : LinkId} {sw : ActiveSweep} {w : Window} {c : Cause}
    (ha : (s.link l).sweep.active = some sw) (hw : s.window sw.window = some w) (hl : w.link = l)
    (hup : s.linkState l = .up) (hx : w.exportSide.isSome = true) (hc : c ≠ .windowCleared) :
    s.abortSweep l c =
      { ((s.modLink l fun k => { k with
          capture := { k.capture with flushDue := k.capture.flushDue || !w.notice }
          sweep := { active := none, read := if k.sweep.read = .current then .orphan else k.sweep.read }
          }).offered [.sweepAborted sw.window c]) with
        windows := s.windows.set sw.window (some { w with exportSide := some .stale, notice := true }) } := by
  subst hl
  obtain ⟨e, he⟩ := Option.isSome_iff_exists.1 hx
  simp only [State.abortSweep, ha, hc, if_false]
  have hw2 : (s.modLink w.link fun k => { k with sweep :=
      { active := none, read := if k.sweep.read = .current then .orphan else k.sweep.read } }).window sw.window =
      some w := by simp [hw]
  rw [State.modWindow_some hw2]
  simp only [State.raise_withWindows, withWindows_linkState, State.raise_linkState]
  rw [if_pos (by simpa [State.linkState] using hup),
    State.setNotice_some (w := w.withExport .stale) (withWindows_set_window _ _ _ _) (by simp [Window.withExport, he])]
  simp only [windows_set_set, withWindows_modLink, State.raise_modLink, State.offered, List.foldl, Window.withExport, he,
    Option.map_some, State.modLink_windows, State.modLink_modLink]

/-- A local cause at the export side of a valid window, by the side and the link state (R12). -/
theorem State.localStale_lost {s : State} {i : Index} {w : Window} {c : Cause} (h : s.window i = some w)
    (hs : s.SweepLaw) (hc : c ≠ .windowCleared) : s.ExportLost (s.localStale i c) i w c := by
  constructor
  · intro he hl
    have hcap : (s.linkState w.link).capturing = true := by rcases hl with h | h | h <;> rw [h] <;> rfl
    simp only [State.localStale, h, he, State.modWindow_some h, Window.withExport, Option.map_some,
      State.raise_withWindows, withWindows_linkState, State.raise_linkState, hcap, if_true]
    rw [State.setNotice_some (w := { w with exportSide := some .stale }) (withWindows_set_window _ _ _ _) rfl]
    simp only [windows_set_set, withWindows_modLink, State.raise_modLink, State.offered, List.foldl]
  · intro he hl
    have hcap : (s.linkState w.link).capturing = false := by rcases hl with h | h | h <;> rw [h] <;> rfl
    simp only [State.localStale, h, he, State.modWindow_some h, Window.withExport, Option.map_some,
      State.raise_withWindows, withWindows_linkState, State.raise_linkState, hcap, State.offered, List.foldl]
    simp
  · intro he
    obtain ⟨sw, hsw, rfl⟩ := Option.map_eq_some_iff.1 ((hs.sweeping i w h).1 he)
    simp only [State.localStale, h, he]
    exact State.abortSweep_up hsw h rfl (hs.active w.link sw hsw).1 (by simp [he]) hc
  · intro he
    rcases he with he | he <;> simp [State.localStale, h, he]

/-- A cause for the import side of a valid window (R13). -/
theorem State.importStale_of {s : State} {i : Index} {w : Window} {c : Cause} (h : s.window i = some w) :
    s.importStale i c =
      if w.importSide = some .inStep ∨ w.importSide = some .filling then
        { (s.offered [.windowStale i .importSide c]) with
          windows := s.windows.set i (some { w with importSide := some .stale }) }
      else s := by
  simp only [State.importStale, h]
  rcases hi : w.importSide with _ | m
  · simp
  · cases m <;>
      simp [State.modWindow_some h, Window.withImport, hi, State.raise_withWindows, State.offered]

/-! ## Queues -/

/-- The number of complete records ahead of the first placeholder (R30). -/
theorem availableRecords_length (q : List CaptureEntry) :
    (availableRecords q).length = (q.takeWhile fun e => !e.isPlaceholder).length := by
  induction q with
  | nil => rfl
  | cons x xs ih => rcases x with r | _ <;> simp [availableRecords, List.takeWhile, CaptureEntry.isPlaceholder, ih]

theorem availableRecords_split (records : List Record) (blocked : List CaptureEntry)
    (h : ∀ e ∈ blocked.head?, e.isPlaceholder = true) :
    availableRecords (records.map CaptureEntry.record ++ blocked) = records := by
  induction records with
  | nil =>
    rcases blocked with _ | ⟨x, xs⟩
    · rfl
    · rcases x with r | _
      · have := h (.record r) (by simp)
        simp [CaptureEntry.isPlaceholder] at this
      · rfl
  | cons x xs ih => simp only [List.map_cons, List.cons_append, availableRecords, ih]

theorem placeholderWord_split (pre : List CaptureEntry) (t : Tag) (o : Offset) (post : List CaptureEntry)
    (h : ∀ e ∈ pre, e.isPlaceholder = false) : placeholderWord (pre ++ .placeholder t o :: post) = some (t, o) := by
  induction pre with
  | nil => rfl
  | cons x xs ih =>
    rcases x with r | _
    · simp only [List.cons_append, placeholderWord]
      exact ih fun e he => h e (by simp [he])
    · have := h _ List.mem_cons_self
      simp [CaptureEntry.isPlaceholder] at this

theorem placeholderWord_none (q : List CaptureEntry) (h : ∀ e ∈ q, e.isPlaceholder = false) :
    placeholderWord q = none := by
  induction q with
  | nil => rfl
  | cons x xs ih =>
    rcases x with r | _
    · simp only [placeholderWord]
      exact ih fun e he => h e (by simp [he])
    · have := h _ List.mem_cons_self
      simp [CaptureEntry.isPlaceholder] at this

/-- The placeholder filled in its slot; in a coalescing window the older records for the word go (R25). -/
theorem fillPlaceholder_split (c : Bool) (d : Word) (pre : List CaptureEntry) (t : Tag) (o : Offset)
    (post : List CaptureEntry) (h : ∀ e ∈ pre, e.isPlaceholder = false) :
    fillPlaceholder c d (pre ++ .placeholder t o :: post) =
      (if c then pre.filter fun e => !e.isWriteOf t o else pre) ++ .record (.write t o 15 d) :: post := by
  induction pre with
  | nil => cases c <;> rfl
  | cons x xs ih =>
    have hx : ∀ e ∈ xs, e.isPlaceholder = false := fun e he => h e (by simp [he])
    rcases x with r | _
    · simp only [List.cons_append, fillPlaceholder, placeholderWord_split _ _ _ _ hx, Option.any_some, ih hx]
      cases c
      · simp
      · cases hr : r.isWriteOf t o <;> simp [List.filter, CaptureEntry.isWriteOf, hr]
    · have := h _ List.mem_cons_self
      simp [CaptureEntry.isPlaceholder] at this

/-- The drain point on the newest WRITE record for the word (R85). -/
theorem markNewest_split (t : Tag) (o : Offset) (pre : List ApplyEntry) (m : LaneMask) (d : Word) (seen : Option Seq)
    (drain : Bool) (post : List ApplyEntry) (h : ∀ e ∈ post, e.record.isWriteOf t o = false) :
    markNewest t o (pre ++ (⟨.write t o m d, seen, drain⟩ : ApplyEntry) :: post) =
      pre ++ ⟨.write t o m d, seen, true⟩ :: post := by
  have hp : post.any (·.record.isWriteOf t o) = false := by
    rw [List.any_eq_false]
    intro e he
    simp [h e he]
  induction pre with
  | nil =>
    simp only [List.nil_append, markNewest, hp]
    simp [Record.isWriteOf]
  | cons x xs ih =>
    simp only [List.cons_append, markNewest]
    rw [if_pos]
    · simp [ih]
    · simp [Record.isWriteOf]

end Sys2Proof.Machine
end

