-- ==== Sys2Proof/Laws/Check.lean ====
section
/-! SUPPORT. A Boolean check for each law of a state, with the proof that a state that passes it has the law: what the
tests use to show that a concrete state meets the premises of a statement. -/

namespace Sys2Proof.Machine

def bothLinks : List LinkId := [.a, .b]

theorem mem_bothLinks (l : LinkId) : l ∈ bothLinks := by cases l <;> simp [bothLinks]

def State.allWindows (s : State) (p : Index → Window → Bool) : Bool :=
  allIndices.all fun i => (s.window i).all fun w => p i w

theorem State.allWindows_iff (s : State) (p : Index → Window → Bool) :
    s.allWindows p = true ↔ ∀ i, ∀ w ∈ s.window i, p i w = true := by
  simp only [State.allWindows, List.all_eq_true]
  constructor
  · intro h i w hw
    have := h i (mem_allIndices i)
    rw [show s.window i = some w from hw] at this
    simpa using this
  · intro h i _
    cases hw : s.window i with
    | none => rfl
    | some w => simpa using h i w hw

def Window.check (w : Window) : Bool :=
  decide (w.base % 256 = 0 ∧ w.k ≤ 14 ∧ w.base + w.size ≤ Config.addressSpace ∧
    w.exportSide.isSome = w.direction.hasExport ∧ w.importSide.isSome = w.direction.hasImport ∧
    w.coalesce.isSome = w.direction.hasExport ∧ w.policy.isSome = !w.direction.hasExport ∧
    (w.notice = true → w.direction.hasExport = true))

theorem Window.legal_of_check {w : Window} (h : w.check = true) : w.Legal := by
  simp only [Window.check, decide_eq_true_eq] at h
  exact ⟨h.1, h.2.1, h.2.2.1, h.2.2.2.1, h.2.2.2.2.1, h.2.2.2.2.2.1, h.2.2.2.2.2.2.1, h.2.2.2.2.2.2.2⟩

def State.tableCheck (s : State) : Bool :=
  s.allWindows fun i v => v.check && s.allWindows fun j w => decide (i ≠ j → v.overlaps w = false ∧
    (v.link = w.link → v.tag = w.tag →
      (v.direction.hasExport && w.direction.hasExport) = false ∧ (v.direction.hasImport && w.direction.hasImport) = false))

theorem State.tableLaw_of_check {s : State} (h : s.tableCheck = true) : s.TableLaw := by
  simp only [State.tableCheck, State.allWindows_iff, Bool.and_eq_true, decide_eq_true_eq] at h
  exact ⟨fun i w hw => Window.legal_of_check (h i w hw).1, fun i j hij v hv w hw => ((h i v hv).2 j w hw hij).1,
    fun i j hij v hv w hw hl ht => (((h i v hv).2 j w hw hij).2 hl ht).1,
    fun i j hij v hv w hw hl ht => (((h i v hv).2 j w hw hij).2 hl ht).2⟩

def State.sweepCheck (s : State) : Bool :=
  (s.allWindows fun i w => decide (w.exportSide = some .sweeping ↔
    (s.link w.link).sweep.active.map ActiveSweep.window = some i)) &&
  bothLinks.all fun l => (s.link l).sweep.active.all fun sw =>
    decide (s.linkState l = .up ∧ (s.window sw.window).map Window.link = some l)

theorem State.sweepLaw_of_check {s : State} (h : s.sweepCheck = true) : s.SweepLaw := by
  simp only [State.sweepCheck, State.allWindows_iff, Bool.and_eq_true, decide_eq_true_eq, List.all_eq_true] at h
  refine ⟨h.1, fun l sw hsw => ?_⟩
  have := h.2 l (mem_bothLinks l)
  rw [show (s.link l).sweep.active = some sw from hsw] at this
  simpa using this

def State.placeholderCheck (s : State) : Bool :=
  bothLinks.all fun l => decide (((s.link l).capture.queue.filter CaptureEntry.isPlaceholder).length ≤ 1 ∧
    ((s.link l).capture.queue.any CaptureEntry.isPlaceholder = true → (s.link l).sweep.read ≠ .none) ∧
    ((s.link l).sweep.read ≠ .none → s.port.map PortTransaction.owner = some (.sweep l)) ∧
    (s.inReset = true → (s.link l).sweep.read = .none))

theorem State.placeholderLaw_of_check {s : State} (h : s.placeholderCheck = true) : s.PlaceholderLaw := by
  simp only [State.placeholderCheck, decide_eq_true_eq, List.all_eq_true] at h
  exact ⟨fun l => (h l (mem_bothLinks l)).1, fun l => (h l (mem_bothLinks l)).2.1,
    fun l => (h l (mem_bothLinks l)).2.2.1, fun hr l => (h l (mem_bothLinks l)).2.2.2 hr⟩

def Timer.isPaused : Timer → Bool
  | .paused _ => true
  | _ => false

theorem Timer.running_of {t : Timer} (h : t.isRunning = true) : ∃ n, t = .running n := by
  cases t <;> simp_all [Timer.isRunning]

theorem Timer.paused_of {t : Timer} (h : t.isPaused = true) : ∃ n, t = .paused n := by
  cases t <;> simp_all [Timer.isPaused]

def Link.ackTimerCheck (k : Link) : Bool :=
  decide ((k.config.mode = .loop → k.tx.ackTimer = .stopped) ∧
    (anySent k.tx.retransmit = false → k.tx.ackTimer = .stopped) ∧
    (k.config.mode = .normal → anySent k.tx.retransmit = true → k.tx.peerHold = false → k.tx.ackTimer.isRunning = true) ∧
    (k.config.mode = .normal → anySent k.tx.retransmit = true → k.tx.peerHold = true → k.tx.ackTimer.isPaused = true) ∧
    (k.control.state.carrying = false → k.tx.retransmit = []) ∧
    (k.control.state.carrying = false → k.tx.peerHold = false ∧ k.control.peerHoldTimer = .stopped))

theorem Link.ackTimerLaw_of_check {k : Link} (h : k.ackTimerCheck = true) : k.AckTimerLaw := by
  simp only [Link.ackTimerCheck, decide_eq_true_eq] at h
  exact ⟨h.1, h.2.1, fun a b c => Timer.running_of (h.2.2.1 a b c), fun a b c => Timer.paused_of (h.2.2.2.1 a b c),
    h.2.2.2.2.1, h.2.2.2.2.2⟩

theorem State.ackTimerLaw_of_check {s : State} (h : (s.a.ackTimerCheck && s.b.ackTimerCheck) = true) :
    s.AckTimerLaw := by
  rw [Bool.and_eq_true] at h
  exact ⟨Link.ackTimerLaw_of_check h.1, Link.ackTimerLaw_of_check h.2⟩

def framesFromCheck : Seq → List Frame → Bool
  | _, [] => true
  | q, f :: fs => decide (f.seq = q) && framesFromCheck (q + 1) fs

theorem framesFrom_of_check (fs : List Frame) (q : Seq) (h : framesFromCheck q fs = true) : framesFrom q fs := by
  induction fs generalizing q with
  | nil => trivial
  | cons f fs ih =>
    simp only [framesFromCheck, Bool.and_eq_true, decide_eq_true_eq] at h
    exact ⟨h.1, ih _ h.2⟩

def Link.sequenceCheck (k : Link) : Bool :=
  framesFromCheck k.tx.oldest k.tx.retransmit &&
  decide (k.tx.nextSend = k.tx.oldest + BitVec.ofNat 6 k.tx.retransmit.length ∧
    (k.config.mode = .normal → anySent (k.tx.retransmit.dropWhile (·.sent)) = false) ∧
    (k.control.state.carrying = false → k.tx.retransmit = []))

theorem Link.sequenceLaw_of_check {k : Link} (h : k.sequenceCheck = true) : k.SequenceLaw := by
  simp only [Link.sequenceCheck, Bool.and_eq_true, decide_eq_true_eq] at h
  exact ⟨framesFrom_of_check _ _ h.1, h.2.1, h.2.2.1, h.2.2.2⟩

theorem State.sequenceLaw_of_check {s : State} (h : (s.a.sequenceCheck && s.b.sequenceCheck) = true) :
    s.SequenceLaw := by
  rw [Bool.and_eq_true] at h
  exact ⟨Link.sequenceLaw_of_check h.1, Link.sequenceLaw_of_check h.2⟩

def Link.receiverCheck (k : Link) : Bool :=
  decide ((k.rx.alignment = .aligned →
      k.config.mode = .normal ∧ (k.control.state = .training ∨ k.control.state.carrying = true)) ∧
    (k.rx.assembly.isSome = true → k.rx.alignment = .aligned ∧ k.control.state.carrying = true) ∧
    (k.examines = false → k.rx.alignment = .hunt ∧ k.rx.silenceTimer = .stopped))

theorem State.receiverLaw_of_check {s : State} (h : (s.a.receiverCheck && s.b.receiverCheck) = true) :
    s.ReceiverLaw := by
  simp only [Bool.and_eq_true, Link.receiverCheck, decide_eq_true_eq] at h
  exact ⟨⟨h.1.1, h.1.2.1, h.1.2.2⟩, ⟨h.2.1, h.2.2.1, h.2.2.2⟩⟩

def Link.capacityCheck (k : Link) : Bool :=
  decide (k.capture.queue.length ≤ Config.captureCapacity ∧ k.apply.queue.length ≤ Config.applyCapacity ∧
    k.conflict.table.length ≤ Config.pendingCapacity ∧ k.tx.retransmit.length ≤ k.config.inFlightLimit ∧
    k.config.inFlightLimit ≤ Config.inFlightCapacity ∧ (k.control.state.carrying = false → k.tx.retransmit = []))

theorem Link.withinCapacity_of_check {k : Link} (h : k.capacityCheck = true) : k.WithinCapacity := by
  simp only [Link.capacityCheck, decide_eq_true_eq] at h
  exact ⟨h.1, h.2.1, h.2.2.1, h.2.2.2.1, h.2.2.2.2.1, h.2.2.2.2.2⟩

theorem State.withinCapacity_of_check {s : State}
    (h : (s.a.capacityCheck && s.b.capacityCheck && decide (s.events.length ≤ Config.eventCapacity)) = true) :
    s.WithinCapacity := by
  simp only [Bool.and_eq_true, decide_eq_true_eq] at h
  exact ⟨Link.withinCapacity_of_check h.1.1, Link.withinCapacity_of_check h.1.2, h.2⟩

def Link.conflictCheck (k : Link) : Bool :=
  decide ((k.control.rank = .junior ∨ k.control.rank = .self → k.conflict.table = []) ∧
    (k.conflict.table.map fun e => (e.tag, e.offset)).Nodup ∧
    (∀ e ∈ k.conflict.table, e.retiredAt k.conflict.horizon = false) ∧
    (k.control.rank = .unknown → ∀ e ∈ k.conflict.table, e.frame = none) ∧
    (k.control.state.carrying = true ↔ k.control.rank ≠ .unknown) ∧
    (k.control.rank = .senior → (k.tx.nextSend - k.conflict.horizon).toNat ≤ Config.stallDistance))

theorem State.conflictLaw_of_check {s : State} (h : (s.a.conflictCheck && s.b.conflictCheck) = true) :
    s.ConflictLaw := by
  simp only [Bool.and_eq_true, Link.conflictCheck, decide_eq_true_eq] at h
  exact ⟨⟨h.1.1, h.1.2.1, h.1.2.2.1, h.1.2.2.2.1, h.1.2.2.2.2.1, h.1.2.2.2.2.2⟩,
    ⟨h.2.1, h.2.2.1, h.2.2.2.1, h.2.2.2.2.1, h.2.2.2.2.2.1, h.2.2.2.2.2.2⟩⟩

def State.wordCheck (s : State) : Bool :=
  (match s.host.classification with
   | some (.window i o) => (s.window i).any fun w => decide (o.toNat < w.words)
   | _ => true) &&
  (bothLinks.all fun l =>
    ((s.link l).sweep.active.all fun sw => (s.window sw.window).any fun w => decide (sw.next.toNat < w.words)) &&
    ((s.link l).conflict.table.all fun e => allIndices.any fun i => (s.window i).any fun w =>
      decide (w.link = l ∧ w.isShared = true ∧ w.tag = e.tag ∧ e.offset.toNat < w.words)))

theorem State.wordLaw_of_check {s : State} (h : s.wordCheck = true) : s.WordLaw := by
  simp only [State.wordCheck, Bool.and_eq_true, List.all_eq_true, List.any_eq_true] at h
  have any_of : ∀ {i : Index} {p : Window → Bool}, (s.window i).any p = true → ∃ w ∈ s.window i, p w = true := by
    intro i p h
    cases hw : s.window i with
    | none => simp [hw] at h
    | some w => exact ⟨w, rfl, by simpa [hw] using h⟩
  refine ⟨fun i o hc => ?_, fun l sw hsw => ?_, fun l e he => ?_⟩
  · have := h.1
    rw [hc] at this
    obtain ⟨w, hw, hp⟩ := any_of this
    exact ⟨w, hw, by simpa using hp⟩
  · have := (h.2 l (mem_bothLinks l)).1
    rw [show (s.link l).sweep.active = some sw from hsw] at this
    obtain ⟨w, hw, hp⟩ := any_of (by simpa using this)
    exact ⟨w, hw, by simpa using hp⟩
  · obtain ⟨i, _, hi⟩ := (h.2 l (mem_bothLinks l)).2 e he
    obtain ⟨w, hw, hp⟩ := any_of hi
    exact ⟨i, w, hw, by simpa using hp⟩

def State.hostCheck (s : State) : Bool :=
  decide (s.host.access.isSome = !decide (s.host.phase = .idle)) &&
  decide (s.host.phase = .inMemory ↔ s.port.map PortTransaction.owner = some .host) &&
  decide (s.drainPoints = if s.host.phase = .waitDrain then 1 else 0) &&
  (bothLinks.all fun l => (s.link l).apply.queue.all fun e => !e.drainPoint ||
    match s.host.classification with
    | some (.window i o) => (s.window i).any fun w =>
        decide (w.link = l ∧ w.importSide.isSome = true ∧ e.record.isWriteOf w.tag o = true)
    | _ => false) &&
  decide (s.inReset = true → s.host.phase = .idle)

theorem State.hostLaw_of_check {s : State} (h : s.hostCheck = true) : s.HostLaw := by
  simp only [State.hostCheck, Bool.and_eq_true, decide_eq_true_eq, List.all_eq_true] at h
  obtain ⟨⟨⟨⟨h1, h2⟩, h3⟩, h4⟩, h5⟩ := h
  refine ⟨h1, h2, h3, fun l e he hd => ?_, h5⟩
  have := h4 l (mem_bothLinks l) e he
  rw [hd] at this
  rcases hc : s.host.classification with _ | (_ | ⟨i, o⟩ | ⟨i, o⟩)
  · simp [hc] at this
  · simp [hc] at this
  · cases hw : s.window i with
    | none => simp [hc, hw] at this
    | some w =>
      simp [hc, hw] at this
      exact ⟨i, o, w, hw, rfl, this.1, this.2.1, this.2.2⟩
  · simp [hc] at this

end Sys2Proof.Machine
end

