-- ==== Sys2Proof/Laws/Link.lean ====
section
/-! SUPPORT. One lemma for each shared operation of the apply queue, the host port, link control and the transmitter. -/

namespace Sys2Proof.Machine

/-! ## Apply queue and conflict unit -/

/-- The hold flag evaluated at the occupancy, the peer-hold-limit timer of a LOOP-mode link following it (R79, R55). -/
theorem Link.evalHold_eq (k : Link) :
    k.evalHold = { k with
      apply := { k.apply with holdFlag := k.flagAt k.apply.queue.length }
      control := { k.control with peerHoldTimer := k.loopTimer (k.flagAt k.apply.queue.length) } } := by
  have hf : holdFlagAt k.config.holdMark k.apply.queue.length k.apply.holdFlag = k.flagAt k.apply.queue.length := rfl
  simp only [Link.evalHold, hf, Link.loopTimer, LinkState.carrying_iff]
  congr 2
  split
  · cases k.apply.holdFlag <;> cases k.flagAt k.apply.queue.length <;> rfl
  · rfl

/-- An offer to the horizon changes the conflict unit of that link alone (R97, R100). -/
theorem State.offerHorizon_eq (s : State) (l : LinkId) (v : Seq) :
    s.offerHorizon l v = s.modLink l fun k => { k with conflict := k.horizonAfter v } := by
  simp only [State.offerHorizon]
  apply State.modLink_congr
  simp only [Link.horizonAfter, PendingWrite.retiredAt]
  split <;> rfl

/-- The removal of a head record, before the drain point is looked at (R79, R98). -/
theorem State.popApply_eq (s : State) (l : LinkId) (e : ApplyEntry) (rest : List ApplyEntry)
    (h : (s.link l).apply.queue = e :: rest) :
    s.popApply l = (s.modLink l fun k => { k with
      apply := { queue := rest, holdFlag := k.flagAt rest.length, outstanding := .none }
      control := { k.control with peerHoldTimer := k.loopTimer (k.flagAt rest.length) }
      conflict := match rest.head?.bind ApplyEntry.seen with
        | some v => k.horizonAfter v
        | none => k.conflict }).endDrain := by
  simp only [State.popApply, State.offerHead]
  congr 1
  have e1 : ((s.modLink l fun k => Link.evalHold { k with
      apply := { k.apply with queue := k.apply.queue.tail, outstanding := .none } }).link l).apply.queue = rest := by
    simp [h, Link.evalHold_eq]
  rw [e1]
  cases hr : rest.head?.bind ApplyEntry.seen with
  | none =>
    simp only
    apply State.modLink_congr
    simp [Link.evalHold_eq, h, Link.flagAt, Link.loopTimer]
  | some v =>
    simp only [State.offerHorizon_eq, State.modLink_modLink]
    apply State.modLink_congr
    simp [Link.evalHold_eq, h, Link.flagAt, Link.loopTimer, Link.horizonAfter]

/-- A drain that has not ended changes nothing (R86). -/
theorem State.endDrain_not {s : State}
    (h : s.host.phase ≠ .waitDrain ∨ ∃ l, ∃ x ∈ (s.link l).apply.queue, x.drainPoint = true) : s.endDrain = s := by
  unfold State.endDrain
  rw [if_neg]
  rintro ⟨a, b, c⟩
  rcases h with h | ⟨l, x, hx, hd⟩
  · exact h a
  · cases l
    · exact b (by simp [ApplyBlock.hasDrainPoint]; exact ⟨x, hx, hd⟩)
    · exact c (by simp [ApplyBlock.hasDrainPoint]; exact ⟨x, hx, hd⟩)

/-! ## Host port -/

/-- A write that acts on the export side of a valid window (R137). -/
theorem State.exportWrite_acted {s : State} {i : Index} {w : Window} (h : s.window i = some w) :
    s.WriteActed (s.exportWrite i w) i w := by
  have hl : s.hostPlain.linkState w.link = s.linkState w.link := by
    simp only [State.hostPlain, State.linkState]
    cases w.link <;> rfl
  have key : ∀ c, (s.linkState w.link = .draining ∨ s.linkState w.link = .disabled ∨ s.linkState w.link = .fault) →
      w.exportSide = some .inStep →
      (s.claimHost .plain).localStale i c = { (s.hostPlain.offered [.windowStale i .exportSide c]) with
        windows := s.windows.set i (some { w with exportSide := some .stale }) } := by
    intro c hst he
    have hcap : (s.hostPlain.linkState w.link).capturing = false := by
      rw [hl]
      rcases hst with h | h | h <;> rw [h] <;> rfl
    have h2 : s.hostPlain.window i = some w := h
    change s.hostPlain.localStale i c = _
    simp only [State.localStale, h2, he, State.modWindow_some h2, Window.withExport, Option.map_some,
      State.raise_withWindows, withWindows_linkState, State.raise_linkState, hcap, State.offered, List.foldl]
    simp [State.hostPlain]
  constructor
  · intro he hst
    rcases he with he | he <;> rcases hst with h | h | h <;> simp [State.exportWrite, he, h, State.claimHost]
  · intro he hst
    rw [← key _ (Or.inl hst) he]
    simp [State.exportWrite, he, hst]
  · intro he hst
    rw [← key _ (Or.inr hst) he]
    rcases hst with h | h <;> simp [State.exportWrite, he, h]
  · intro he
    simp [State.exportWrite, he]
    rfl

/-- An access classified against a valid window that has no drain point to wait for (R136, R138). -/
theorem State.proceedHost_proceeded {s : State} {acc : Access} {i : Index} {o : Offset} {w : Window}
    (ha : s.host.access = some acc) (hc : s.host.classification = some (.window i o)) (hw : s.window i = some w) :
    s.Proceeded s.proceedHost acc i w := by
  constructor
  · intro hk
    simp only [State.proceedHost, ha, State.hostTarget, hc, hw, Option.map_some]
    cases w.direction <;> simp [hk, importHandling] <;> rfl
  · intro hd d hk hp
    simp only [State.proceedHost, ha, State.hostTarget, hc, hw, Option.map_some]
    simp [hd, hk, hp, importHandling]
    rfl
  · intro hd d hk hp
    simp only [State.proceedHost, ha, State.hostTarget, hc, hw, Option.map_some]
    simp [hd, hk, hp, importHandling]
    rfl
  · intro hd d hk hp
    simp only [State.proceedHost, ha, State.hostTarget, hc, hw, Option.map_some]
    simp [hd, hk, hp, importHandling]
    rfl
  · intro hd d hk
    simp only [State.proceedHost, ha, State.hostTarget, hc, hw, Option.map_some]
    have := State.exportWrite_acted hw
    cases hdd : w.direction <;> simp_all

theorem State.roomTest_idle {s : State} (h : s.host.phase = .idle) : s.roomTest = s := by simp [State.roomTest, h]

/-- The room test changes nothing but the host port (R139). -/
theorem State.roomTest_eq (s : State) : s.roomTest = { s with host := s.roomTest.host } := by
  unfold State.roomTest
  repeat' split
  all_goals rfl

/-! ## Link control -/

theorem State.faultLink_running {s : State} {l : LinkId} {r : FaultReason} (h : (s.linkState l).running = true) :
    s.faultLink l r = s.enterDown l (some r) := by simp [State.faultLink, h]

/-- What the blocks of a link become when it goes down (R130, Table 8-5). -/
theorem Link.goDown_eq (k : Link) (r : Option FaultReason) :
    k.goDown r = { k with
      control := { k.control with
        state := if r.isSome then .fault else .disabled
        faultReason := r, effectiveClass := none, rank := .unknown
        trainingTimer := .stopped, peerHoldTimer := .stopped }
      rx := .reset, tx := .reset, capture := .reset, conflict := .reset
      apply := { k.apply with
        queue := (k.apply.queue.filter fun e => !e.record.isMarker).map fun e => { e with seen := none }
        holdFlag := k.flagAt
          ((k.apply.queue.filter fun e => !e.record.isMarker).map fun e => { e with seen := none }).length } } := by
  simp only [Link.goDown, Link.dropMarkers, Link.evalHold_eq, Link.stopRx, Link.stopTx, Link.loopTimer]
  cases r <;> simp [Link.flagAt]

/-! ## Transmitter and receiver -/

/-- An ack that splits the list removes the frames it covers, and removal is progress (R46). -/
theorem Link.acknowledge_split {k : Link} {a : Seq} {gone rest : List Frame} (h : k.AckSplits a gone rest) :
    k.acknowledge a = { k with tx := k.acked gone rest } := by
  obtain ⟨h1, h2, h3⟩ := h
  have hd : (k.tx.retransmit.dropWhile fun f => before f.seq a) = rest := by
    rw [h1, List.dropWhile_append_of_pos h2]
    rcases rest with _ | ⟨f, fs⟩
    · rfl
    · have := h3 f (by simp)
      simp [List.dropWhile, this]
  have hl : (rest.length = k.tx.retransmit.length) ↔ gone = [] := by
    rw [h1, List.length_append]
    constructor
    · intro h
      exact List.length_eq_zero_iff.1 (by omega)
    · intro h
      simp [h]
  simp only [Link.acknowledge, hd, hl, Link.acked]
  split
  · rfl
  · congr 2
    simp only [progressTimer, anySent]
    by_cases hs : rest.any Frame.sent = true
    · have : (rest.any fun x => x.sent) = true := hs
      simp only [this, if_true]
      cases k.tx.ackTimer <;> rfl
    · have : (rest.any fun x => x.sent) = false := by simpa using hs
      simp only [this]
      rfl

/-- The oldest unsent frame marked sent (R44). -/
theorem markFirstUnsent_split (pre : List Frame) (f : Frame) (post : List Frame) (h : ∀ g ∈ pre, g.sent = true)
    (hf : f.sent = false) : markFirstUnsent (pre ++ f :: post) = pre ++ { f with sent := true } :: post := by
  induction pre with
  | nil => simp [markFirstUnsent, hf]
  | cons x xs ih =>
    have := ih fun g hg => h g (by simp [hg])
    simp [markFirstUnsent, h x (by simp), this]

/-- What an aligned receiver does with a well-formed symbol other than DATA before the symbol acts (R63, R64, R69). -/
theorem Link.heard_eq (k : Link) :
    Link.damageAssembly { (Link.restartSilence k) with rx := { (Link.restartSilence k).rx with malformedRun := 0 } } =
      k.heard := by
  simp only [Link.damageAssembly, Link.restartSilence, Link.damage, Link.requestNak, Link.heard]
  rcases k with ⟨c, ct, cp, tx, ⟨al, hr, mr, st, asm, re, ns⟩, ap, cf, sw, pt⟩
  cases asm <;> cases ns <;> simp

/-- A well-formed symbol at a settled receiver is handled as Table 4-2 says for UP and DRAINING (R65). -/
theorem State.symbolArrival_aligned {s : State} {l : LinkId} (h : s.Hears l) (sym : Symbol)
    (hk : decodeSymbol sym ≠ .malformed) :
    exec (.symbolArrival l sym) s = .next (((s.modLink l fun k =>
      { (Link.restartSilence k) with rx := { (Link.restartSilence k).rx with malformedRun := 0 } }).symbolInUp l
        (sym.extractLsb' 0 16) (decodeSymbol sym)).finish) := by
  have hex : (s.link l).examines = true := by
    simp [Link.examines, h.normal]
    exact LinkState.running_of_carrying h.state
  simp only [exec, execSymbolArrival, State.happening, h.running, hex, Bool.not_false, Bool.and_self, if_true,
    State.receiveSymbol, hk, if_false]
  have hal : ((s.modLink l Link.restartSilence).link l).rx.alignment = .aligned := by
    simp [Link.restartSilence, h.aligned]
  simp only [hal, State.alignedSymbol, State.modLink_modLink]
  have hst : ((s.modLink l fun k =>
      { (Link.restartSilence k) with rx := { (Link.restartSilence k).rx with malformedRun := 0 } }).linkState l) =
      s.linkState l := by
    simp [Link.restartSilence]
    rfl
  rw [hst]
  rcases h.state with h' | h' <;> rw [h']

end Sys2Proof.Machine
end

