-- ==== Sys2Proof/Laws/LinkDown.lean ====
section
/-! SUPPORT. What the entry of a link to DISABLED or FAULT does, in full. -/

namespace Sys2Proof.Machine

/-! ## Events offered -/

theorem State.offered_eq (es : List Event) (s : State) :
    s.offered es = { s with events := (s.offered es).events, overflow := (s.offered es).overflow } := by
  induction es generalizing s with
  | nil => rfl
  | cons e es ih =>
    simp only [State.offered, List.foldl_cons] at ih ⊢
    rw [ih, State.raise_eq s]

/-- The queue and the flag after events depend on the queue and the flag alone. -/
theorem State.offered_congr (es : List Event) {s t : State} (h1 : s.events = t.events) (h2 : s.overflow = t.overflow) :
    (s.offered es).events = (t.offered es).events ∧ (s.offered es).overflow = (t.offered es).overflow := by
  induction es generalizing s t with
  | nil => exact ⟨h1, h2⟩
  | cons e es ih =>
    simp only [State.offered, List.foldl_cons] at ih ⊢
    apply ih
    · unfold State.raise
      rw [h1]
      split
      · rfl
      · split <;> simp
    · unfold State.raise
      rw [h1]
      split
      · exact h2
      · split <;> simp [h2]

theorem State.offered_append (es fs : List Event) (s : State) : s.offered (es ++ fs) = (s.offered es).offered fs := by
  simp only [State.offered, List.foldl_append]

/-! ## The link that goes down -/

/-- The link's blocks after it went down and its sweep was aborted. -/
def Link.downSwept (k : Link) (r : Option FaultReason) : Link :=
  { k.goDown r with
    sweep := { active := none, read := if k.sweep.active.isSome ∧ k.sweep.read = .current then .orphan else k.sweep.read } }

theorem Link.goDown_sweep (k : Link) (r : Option FaultReason) : (k.goDown r).sweep = k.sweep := by rw [Link.goDown_eq]

/-- The abort of the sweep of a link that has just gone down: no notice is owed (R113, R14). -/
theorem State.abortSweep_down (s : State) (l : LinkId) (r : Option FaultReason) :
    ∃ v, (s.modLink l (·.goDown r)).abortSweep l .linkLeftUp =
        { ((s.modLink l fun k => k.downSwept r).offered
            ((s.link l).sweep.active.map fun sw => Event.sweepAborted sw.window .linkLeftUp).toList) with windows := v } ∧
      ∀ i, ({ s with windows := v } : State).window i = (s.window i).map fun w =>
        if (s.link l).sweep.active.map ActiveSweep.window = some i then w.withExport .stale else w := by
  unfold State.abortSweep
  rw [State.modLink_link, Link.goDown_sweep]
  cases ha : (s.link l).sweep.active with
  | none =>
    refine ⟨s.windows, ?_, fun i => ?_⟩
    · simp only [Option.map_none, Option.toList_none, State.offered, List.foldl]
      have hv : ∀ x : State, x.windows = s.windows → ({ x with windows := s.windows } : State) = x :=
        fun x h => by rw [← h]
      rw [hv _ (by simp)]
      apply State.modLink_congr
      rw [Link.downSwept, ha]
      cases hs : (s.link l).sweep
      simp [hs] at ha
      rw [Link.goDown_eq]
      simp [ha, hs]
    · simp [State.window]
  | some sw =>
    simp only [reduceCtorEq, if_false, State.modLink_modLink]
    rw [if_neg]
    · refine ⟨(s.modWindow sw.window fun x => x.withExport .stale).windows, ?_, fun i => ?_⟩
      · simp only [State.modWindow, State.setWindow, State.modLink_window, State.modLink_windows,
          State.raise_withWindows, Option.map_some, Option.toList_some, State.offered, List.foldl]
        have hh : (s.modLink l fun k => { k.goDown r with
            sweep :=
              { active := none
                read := if (k.goDown r).sweep.read = .current then .orphan else (k.goDown r).sweep.read } }) =
            (s.modLink l fun k => k.downSwept r) := by
          apply State.modLink_congr
          simp [Link.downSwept, ha, Link.goDown_sweep]
        rw [hh]
      · change (s.modWindow sw.window _).window i = _
        by_cases hi : i = sw.window
        · subst hi
          simp
        · have : sw.window ≠ i := fun e => hi e.symm
          simp [State.modWindow_window_ne _ hi, this]
    · simp [Link.goDown_eq]
      cases r <;> simp

/-- The entry to DISABLED or FAULT, block by block (R130, Table 8-5). -/
theorem State.enterDown_eq (s : State) (l : LinkId) (r : Option FaultReason) (hs : s.SweepLaw) :
    ∃ v, s.enterDown l r = { ((s.modLink l fun k => k.downSwept r).offered (s.downEvents l r)) with windows := v } ∧
      ∀ i, ({ s with windows := v } : State).window i = (s.window i).map fun w =>
        if w.link = l then
          { w with exportSide := w.exportSide.map fun _ => .stale, importSide := w.importSide.map fun _ => .stale,
                   notice := false }
        else w := by
  obtain ⟨v, hv, hi⟩ := State.abortSweep_down s l r
  refine ⟨(({ s with windows := v } : State).modWindows (Window.linkDown l)).windows, ?_, fun i => ?_⟩
  · unfold State.enterDown
    simp only [hv]
    rw [State.modWindows_eq]
    have hw : ∀ y : State, (({ y with windows := v } : State).modWindows (Window.linkDown l)).windows =
        (({ s with windows := v } : State).modWindows (Window.linkDown l)).windows := by
      intro y
      apply Vector.ext
      intro j hj
      exact (State.modWindows_window (Window.linkDown l) ({ y with windows := v } : State) ⟨j, hj⟩).trans
        (State.modWindows_window (Window.linkDown l) ({ s with windows := v } : State) ⟨j, hj⟩).symm
    rw [hw]
    simp only [State.downEvents, State.offered_append]
    cases r <;> simp only [State.offered, List.foldl, State.raise_withWindows]
  · have hm : ∀ m : State, ({ s with windows := m.windows } : State).window i = m.window i := fun _ => rfl
    rw [hm, State.modWindows_window, hi, Option.map_map]
    rcases hwi : s.window i with _ | w
    · rfl
    · simp only [Option.map_some, Function.comp, Window.linkDown, Window.allStale]
      congr 1
      by_cases hact : (s.link l).sweep.active.map ActiveSweep.window = some i
      · simp only [hact, if_true]
        have hlk : w.link = l := by
          obtain ⟨sw, hsw, hswi⟩ := Option.map_eq_some_iff.1 hact
          have := (hs.active l sw hsw).2
          rw [hswi, hwi] at this
          simpa using this
        simp [Window.withExport, hlk]
        rfl
      · simp only [hact, if_false]

end Sys2Proof.Machine
end

