-- ==== Sys2Proof/Tests/Slice0.lean ====
section
/-! SUPPORT. Tests of the model: the well-formedness smoke test, words of the wires written out from chapter 12, and one
step each of the commands, the expected values taken from the manual's examples and tables. -/

namespace Sys2Proof.Tests

open Machine

/-! ## Helpers -/

/-- The state a command leaves. -/
def after (c : Instr) (s : State) : Option State :=
  match exec c s with
  | .next t => some t
  | _ => none

/-- A board with node id 7 and a transaction selected, after hardware reset. -/
def node7 : State := { State.reset with config := { PartConfig.reset with nodeId := 7 }, spi := .active none false }

/-- Window 0 of Example 11-1, its export side IN_STEP: EXPORT, link A, tag 3, 0x100000 to 0x100FFF, coalesce on. -/
def exportWindow : Window :=
  { base := 0x100000, k := 4, link := .a, direction := .exports, tag := 3, policy := none, coalesce := some true,
    startInStep := false, exportSide := some .inStep, importSide := none, notice := false }

/-- Window 1 of Example 11-1: IMPORT, link A, tag 3, 0x101000 to 0x1010FF, policy FAULT, start in step. -/
def importWindow : Window :=
  { base := 0x101000, k := 0, link := .a, direction := .imports, tag := 3, policy := some .fault, coalesce := none,
    startInStep := true, exportSide := none, importSide := some .inStep, notice := false }

/-- A SHARED window on link A with tag 5, 0x200000 to 0x2000FF. -/
def sharedWindow : Window :=
  { base := 0x200000, k := 0, link := .a, direction := .shared, tag := 5, policy := none, coalesce := some false,
    startInStep := true, exportSide := some .inStep, importSide := some .inStep, notice := false }

/-- The board with the three windows. -/
def board : State :=
  ((node7.setWindow 0 (some exportWindow)).setWindow 1 (some importWindow)).setWindow 2 (some sharedWindow)

/-- A link that is UP in NORMAL mode with peer 12, its receiver ALIGNED and an IDLE on its line. -/
def upLink (k : Link) (rank : Rank) : Link :=
  { k with
    control := { k.control with
      state := .up, rank, effectiveClass := some .sixteen, peer := some { id := 12, acceptance := .sixteen } }
    rx := { k.rx with alignment := .aligned, silenceTimer := .running 20 }
    tx := { k.tx with output := .symbol (idleSymbol 0 0 false), idleSent := true } }

/-- The board with link A UP at this rank. -/
def up (rank : Rank) : State := board.modLink .a (upLink · rank)

/-- Change link A. -/
def onA (s : State) (f : Link → Link) : State := s.modLink .a f

/-- The board with link A in a state of Table 8-1. -/
def inState (s : State) (x : LinkState) : State := onA s fun k => { k with control := { k.control with state := x } }

/-- A capture queue of `n` sweep markers. -/
def captured (s : State) (n : Nat) : State :=
  onA s fun k => { k with capture := { k.capture with queue := List.replicate n (.record (.sweepOpen 3)) } }

/-- An apply queue with these records, the drain point on none. -/
def queued (s : State) (rs : List Record) : State :=
  onA s fun k => { k with apply := { k.apply with
    queue := rs.map fun r => { record := r, seen := some 0, drainPoint := false } } }

/-- The host port with an access in this phase. -/
def hosting (s : State) (acc : Access) (c : Classification) (p : HostPhase) (h : Handling) : State :=
  { s with host := { HostPort.reset with phase := p, access := some acc, classification := some c, handling := some h } }

/-- The engine of link A active for window 0, whose side is SWEEPING. -/
def sweeping (s : State) (p : SweepPhase) (next : Offset) : State :=
  (onA s fun k => { k with sweep := { k.sweep with active := some { phase := p, window := 0, next } } }).modWindow 0
    (·.withExport .sweeping)

/-- The retransmit list of link A, and next-send after it. -/
def listed (s : State) (fs : List Frame) (oldest : Seq) : State :=
  onA s fun k => { k with tx := { k.tx with
    retransmit := fs, oldest, nextSend := oldest + BitVec.ofNat 6 fs.length,
    ackTimer := if fs.any (·.sent) then .running 100 else .stopped } }

/-- A frame of one STALE item. -/
def frame (q : Seq) (sent : Bool) : Frame := { seq := q, seen := 0, items := [.stale 3], check := 0, sent }

/-- The status of the response buffer. -/
def status (s : Option State) : Option Status := (s.bind State.response).map Response.status

/-! ## Well-formedness -/

/-- A BAD_COMMAND with a code that names a command is ill formed; the codes of R166 end at 0x10. -/
theorem test_badCommand_illFormed : (Instr.badCommand 0x10).wellFormed = false := by decide
theorem test_badCommand_wellFormed : (Instr.badCommand 0x11).wellFormed = true := by decide

/-! ## Words of the wires (chapter 12) -/

/-- Table 12-4 needs 2 bytes for WINDOW_CLEAR, 3 for LINK_DISABLE and 6 for PART_CONFIG_SET; a word one byte short, or with its
last byte incomplete, spells none (R153, R154). -/
theorem test_word_short_of_request : decodeTableWord 8 0x05 = none ∧ decodeTableWord 16 0x0009 = none ∧
    decodeTableWord 40 0x02 = none ∧ decodeTableWord 15 0x0305 = none ∧
    decodeTableWord 16 0x0305 = some (.windowClear 3) := by decide
/-- No row of the table has bits. -/
theorem test_word_spells_request : decodeTableWord 0 0 = none ∧ decodeTableWord 8 0x00 = some .nop ∧
    decodeTableWord 24 0x010009 = some (.linkDisable 0 1) ∧ decodeTableWord 8 0x11 = some (.badCommand 0x11) := by decide

/-- IDLE: 10, 00, ack 5 = 000101, next-send 9 = 001001, hold 1, 000. -/
theorem test_idle_word : decodeSymbol 0x81498 = .idle 5 9 true ∧ idleSymbol 5 9 true = 0x81498 := by decide
/-- FRAME_START: 10, 01, seq 10 = 001010, seen 7 = 000111, count − 1 = 0000. -/
theorem test_frameStart_word : decodeSymbol 0x92870 = .frameStart 10 7 1 := by decide
/-- NAK: 10, 11, code 01, expected 5 = 000101, zeros. -/
theorem test_nak_word : decodeSymbol 0xB4500 = .nak 5 ∧ nakSymbol 5 = 0xB4500 := by decide
/-- HELLO: 10, 11, code 10, node id 7 = 00000111, class-16 1, seen-you 0, zeros. -/
theorem test_hello_word : decodeSymbol 0xB81E0 = .hello 7 true false ∧ helloSymbol 7 true false = 0xB81E0 := by decide
/-- Zero bits are not examined; the pair 11 and the CONTROL codes 00 and 11 are malformed (R164). -/
theorem test_malformed_words : decodeSymbol 0xB45FF = .nak 5 ∧ decodeSymbol 0xC1498 = .malformed ∧
    decodeSymbol 0xB0000 = .malformed ∧ decodeSymbol 0xBC000 = .malformed := by decide
/-- The symbols of frame 10 of Example 6-1, W3:16 = 0xAA; its check, by R165, is 0xCEB3. -/
theorem test_frame_words :
    ({ seq := 10, seen := 7, items := [.write 3 16 15 0xAA], check := frameCheck 10 7 [.write 3 16 15 0xAA],
       sent := false : Frame }).symbols = [0x92870, 0xA03F0, 0xA0010, 0xA0000, 0xA00AA, 0xACEB3] := by decide +kernel
/-- A STALE item: kind 11, tag 8; the check over FRAME_START 0 and it is 0x1B3D. -/
theorem test_stale_check : frameCheck 0 0 [.stale 8] = 0x1B3D := by decide +kernel
/-- The request of transaction 2 of Example 11-1, byte by byte from Table 12-4. -/
theorem test_windowSet_bytes : takeRequest [0x04, 0, 0x00, 0x10, 0x00, 0x00, 4, 0, 0, 3, 0, 1] =
    some (.windowSet 0 ⟨0x100000, 4, 0, 0, 3, 0, 1⟩) := by decide
/-- LINK_SET with the defaults of Table 8-3, mode LOOP: flush time 40, ack timeout 400 = 0x0190. -/
theorem test_linkSet_bytes : takeRequest [0x07, 0, 1, 2, 16, 8, 0, 40, 0x01, 0x90, 6, 20, 100, 16, 50] =
    some (.linkSet 0 ⟨1, 2, 16, 8, 40, 400, 6, 20, 100, 16, 50⟩) := by decide

/-! ## Management port (Example 11-1) -/

/-- NOP leaves the buffer. -/
theorem test_nop : (after .nop node7).map (fun t => (t.response, t.spi)) = some (none, .active none true) := by decide
/-- PART_INFO: Table 12-5. -/
theorem test_partInfo : ((after .partInfo node7).bind State.response).map Response.bytes =
    some [0x01, 0x00, 0x04, 0x32, 16, 2, 48, 32, 64, 16, 8, 64] := by decide
/-- Transaction 1: node id 7 and the mask {1, 2, 3, 4, 6}. -/
theorem test_partConfigSet : (after (.partConfigSet ⟨7, 25, 4, 16, 0x2F⟩) { State.reset with spi := .active none false }).map
    (fun t => t.config) = some { nodeId := 7, holdLimit := 25, applyShare := 4, sweepShare := 16, mask := 0x2F } := by decide
/-- A node id of 255 is BAD_FIELD; another id while a link is UP is WRONG_STATE. -/
theorem test_partConfigSet_refused : status (after (.partConfigSet ⟨255, 25, 4, 16, 0⟩) node7) = some (.refused .badField) ∧
    status (after (.partConfigSet ⟨8, 25, 4, 16, 0⟩) (up .junior)) = some (.refused .wrongState) := by decide
/-- PART_CONFIG_GET reports the values of Table 11-3. -/
theorem test_partConfigGet : ((after .partConfigGet node7).bind State.response).map Response.bytes =
    some [0x03, 0x00, 7, 25, 4, 16, 0] := by decide
/-- Transaction 3: deselected one byte before its end. -/
theorem test_transaction_short : ((after (.transactionEnd [0x04, 1, 0, 0x10, 0x10, 0, 0, 0, 1, 3, 2]) node7).bind State.response) =
    some { code := 0x04, status := .refused .short, data := [] } := by decide
/-- A transaction with no complete byte keeps the buffer. -/
theorem test_transaction_empty : (after (.transactionEnd []) node7).map (fun t => (t.response, t.spi)) = some (none, .idle) := by
  decide
/-- A whole LINK_ENABLE (A) clocked in one transaction: it is taken, and the transaction ends (R153). -/
theorem test_transaction_whole : (after (.transactionEnd [0x08, 0]) node7).map (fun t =>
    (t.linkState .a, t.response, t.spi)) = some (.hunting, some { code := 0x08, status := .ok, data := [] }, .idle) := by
  decide
/-- The buffer as it stands is shifted out. -/
theorem test_transactionBegin : (after .transactionBegin { State.reset with
    response := some { code := 0x08, status := .ok, data := [] } }).map State.spi =
    some (.active (some { code := 0x08, status := .ok, data := [] }) false) := by decide
/-- A code above 0x10 is BAD_COMMAND. -/
theorem test_badCommand : (after (.badCommand 0xFF) node7).bind State.response =
    some { code := 0xFF, status := .refused .badCommand, data := [] } := by decide
/-- Transaction 7: the pop of LINK_UP (A, 12, JUNIOR) with the mask releases INTN; JUNIOR is 2 in Table 12-5. -/
theorem test_eventPop : (after .eventPop { node7 with events := [.linkUp .a 12 .junior], intn := true
                                                      config := { node7.config with mask := 0x2F } }).map
    (fun t => (t.events, t.intn, t.response.map Response.bytes)) =
    some ([], false, some [0x0E, 0, 0, 0, 1, 0, 0xFF, 0xFF, 0xFF, 12, 2, 0xFF, 0xFF]) := by decide
/-- Transaction 6: EMPTY. -/
theorem test_eventPop_empty : ((after .eventPop node7).bind State.response).map Response.bytes =
    some [0x0E, 0, 0, 0, 0, 0xFF, 0xFF, 0xFF, 0xFF, 0xFF, 0xFF, 0xFF, 0xFF] := by decide
theorem test_eventClear : (after .eventClear { node7 with events := [.linkDisabled .a], overflow := true, intn := true }).map
    (fun t => (t.events, t.overflow, t.intn)) = some ([], false, false) := by decide
/-- Soft reset keeps windows with sides STALE, disables links with no event, keeps the node id (end of Example 11-1). -/
theorem test_softReset : (after .softReset (up .junior)).map (fun t =>
    (t.linkState .a, (t.window 0).bind Window.exportSide, (t.window 2).bind Window.importSide, t.events, t.config.nodeId)) =
    some (.disabled, some .stale, some .stale, [], 7) := by decide
theorem test_hardwareReset : (after .hardwareReset (up .junior)).map (fun t =>
    (t.window 0, t.config.nodeId, t.spi, t.inReset)) = some (none, 0, .ignored, true) := by decide
theorem test_resetEnd : (after .resetEnd { State.reset with inReset := true }).map State.inReset = some false := by decide

/-! ## Windows (Examples 11-1 and 1-3) -/

/-- Transaction 4: an entry from its request, accepted beside window 0. -/
theorem test_windowSet : (after (.windowSet 1 ⟨0x101000, 0, 0, 1, 3, 2, 2⟩) (node7.setWindow 0 (some exportWindow))).map
    (fun t => t.window 1) = some (some importWindow) := by decide
/-- One byte of overlap is OVERLAP, also across links; a second export of tag 3 on link A is TAG_IN_USE. -/
theorem test_windowSet_refused : status (after (.windowSet 3 ⟨0x100F00, 0, 1, 0, 9, 0, 0⟩) board) = some (.refused .overlap) ∧
    status (after (.windowSet 3 ⟨0x101100, 0, 0, 0, 3, 0, 0⟩) board) = some (.refused .tagInUse) := by decide
/-- Step 1 of Example 5-2 in small: the purge keeps the outstanding head, the window is OFF. -/
theorem test_windowClear : (after (.windowClear 1) (onA (queued (up .junior) [.write 3 0 15 1, .write 3 1 15 2, .write 5 5 15 3,
    .sweepClose 3]) fun k => { k with apply := { k.apply with outstanding := .forWindow 1 } })).map (fun t =>
      (t.window 1, (t.link .a).apply.queue.map ApplyEntry.record, (t.link .a).apply.outstanding)) =
    some (none, [.write 3 0 15 1, .write 5 5 15 3], .windowCleared) := by decide
/-- WINDOW_GET of window 0 and of an OFF entry, by Table 12-5. -/
theorem test_windowGet : ((after (.windowGet 0) board).bind State.response).map Response.bytes =
    some [0x06, 0, 1, 0x00, 0x10, 0x00, 0x00, 4, 0, 0, 3, 0xFF, 1, 0, 0xFF, 0] ∧
    ((after (.windowGet 15) board).bind State.response).map Response.bytes = some [0x06, 0, 0] := by decide

/-! ## Links (Examples 8-1 and 8-2) -/

theorem test_linkSet : (after (.linkSet 0 ⟨1, 2, 16, 8, 40, 400, 6, 20, 100, 16, 50⟩) node7).map (fun t => (t.link .a).config) =
    some { LinkConfig.reset with mode := .loop } := by decide
theorem test_linkSet_refused : status (after (.linkSet 0 ⟨0, 2, 16, 8, 40, 400, 6, 20, 100, 16, 50⟩) (up .junior)) =
    some (.refused .linkNotDisabled) ∧
    status (after (.linkSet 1 ⟨0, 2, 16, 9, 40, 400, 6, 20, 100, 16, 50⟩) node7) = some (.refused .badField) := by decide
/-- Step 1 of Example 8-1: HUNTING, HELLO (7, class 16, seen-you clear). -/
theorem test_linkEnable : (after (.linkEnable 0) node7).map (fun t => (t.linkState .a, (t.link .a).tx.output)) =
    some (.hunting, .symbol 0xB81E0) := by decide
/-- Step 1 of Example 8-2: UP, SELF, peer 7, LINK_UP (A, 7, SELF). -/
theorem test_linkEnable_loop : (after (.linkEnable 0) (onA node7 fun k => { k with config := { k.config with mode := .loop } })).map
    (fun t => (t.linkState .a, (t.link .a).control.rank, t.events)) = some (.up, .self, [.linkUp .a 7 .self]) := by decide
/-- Step 8 of Example 8-1: both queues empty, so the drain completes at once. -/
theorem test_linkDisable : (after (.linkDisable 0 0) (up .junior)).map (fun t => (t.linkState .a, t.events,
    (t.window 0).bind Window.exportSide)) = some (.disabled, [.linkDisabled .a], some .stale) := by decide
theorem test_linkDisable_drains : (after (.linkDisable 0 0) (captured (up .junior) 1)).map (fun t => (t.linkState .a, t.events)) =
    some (.draining, []) := by decide
/-- LINK_GET of a DISABLED link: the first bytes of Table 12-5, then mode NORMAL, rate 2, class 16, limit 8. -/
theorem test_linkGet : (((after (.linkGet 1) node7).bind State.response).map Response.bytes).map (·.take 12) =
    some [0x0A, 0, 0, 0xFF, 0xFF, 0xFF, 0xFF, 0, 0, 2, 16, 8] := by decide
theorem test_flush : (after (.flush 0) (captured (up .junior) 1)).map (fun t => ((t.link .a).capture.flushDue, status (some t))) =
    some (true, some .ok) ∧ status (after (.flush 1) (up .junior)) = some (.refused .wrongState) := by decide
theorem test_trainingTimer : (after (.trainingTimerExpiry .a) (onA (inState board .training) fun k => { k with
    control := { k.control with trainingTimer := .running 0 } })).map (fun t => (t.linkState .a, t.events)) =
    some (.fault, [.linkFault .a .trainTimeout]) := by decide
theorem test_peerHoldLimit : (after (.peerHoldLimitExpiry .a) (onA (up .junior) fun k => { k with
    control := { k.control with peerHoldTimer := .running 0 } })).map (fun t => (t.linkState .a, t.events)) =
    some (.fault, [.linkFault .a .holdExpired]) := by decide

/-! ## Sweeps (Example 7-1) -/

/-- Step 0: SWEEP_OPEN queued in the same happening, READING at 0, SWEEPING. -/
theorem test_sweepStart : (after (.sweepStart 0) (up .junior)).map (fun t => ((t.link .a).capture.queue, (t.link .a).sweep.active,
    (t.window 0).bind Window.exportSide)) =
    some ([.record (.sweepOpen 3)], some { phase := .reading, window := 0, next := 0 }, some .sweeping) := by decide
theorem test_sweepAbort : (after (.sweepAbort 0) (sweeping (up .junior) .reading 1)).map (fun t => (t.events,
    (t.window 0).map fun w => (w.exportSide, w.notice))) =
    some ([.sweepAborted 0 .command], some (some .stale, true)) := by decide
theorem test_sweepOpenQueued : (after (.sweepOpenQueued .a) (sweeping (captured (up .junior) 47) .opening 0)).map (fun t =>
    ((t.link .a).capture.queue.length, (t.link .a).sweep.active.map ActiveSweep.phase)) = some (48, some .reading) := by decide
/-- Step 14: WINDOW_IN_STEP (EXPORT), engine IDLE. -/
theorem test_sweepCloseQueued : (after (.sweepCloseQueued .a) (sweeping (up .junior) .closing 1023)).map (fun t =>
    ((t.link .a).capture.queue, t.events, (t.link .a).sweep.active, (t.window 0).bind Window.exportSide)) =
    some ([.record (.sweepClose 3)], [.windowInStep 0 .exportSide], none, some .inStep) := by decide

/-! ## Host port and memory port (Examples 5-1, 6-1, 6-2, 9-1, 10-1) -/

/-- Word 10 of the IMPORT window with W3:10 twice: the drain point rests on the newer one (step 2 of Example 5-1). -/
theorem test_arrival_drain : (after (.hostAccessArrival ⟨.read, 0x4040A, 15⟩)
    (queued (up .junior) [.write 3 10 15 1, .write 3 11 15 2, .write 3 10 15 3])).map (fun t =>
      (t.host.phase, (t.link .a).apply.queue.map ApplyEntry.drainPoint)) =
    some (.waitDrain, [false, false, true]) := by decide
/-- Step 0 of Example 9-1: 48 records, no merge: WAIT_ROOM, the timer running from 25. -/
theorem test_arrival_waitRoom : (after (.hostAccessArrival ⟨.write 0xCAFE, 0x40000, 15⟩) (captured (inState board .training) 48)).map
    (fun t => (t.host.phase, t.host.holdTimer)) = some (.waitRoom, .running 25) := by decide
/-- Step 3 of Example 9-1. -/
theorem test_captureHold : (after .captureHoldExpiry { hosting (captured (inState board .training) 48)
      ⟨.write 0xCAFE, 0x40000, 15⟩ (.window 0 0) .waitRoom .capturing with
      host := { (hosting board ⟨.write 0xCAFE, 0x40000, 15⟩ (.window 0 0) .waitRoom .capturing).host with holdTimer := .running 0 } }).map
    (fun t => (t.host.phase, t.host.handling, t.events, (t.window 0).map Window.notice)) =
    some (.claiming, some .plain, [.windowStale 0 .exportSide .captureTimeout], some true) := by decide
/-- Choice 2 of Example 10-1: the host is served first, and every presented claim counts the grant. -/
theorem test_arbiterChoice : (after .arbiterChoice (hosting (queued (up .junior) [.write 3 0 15 1]) ⟨.read, 0, 15⟩ .noWindow
    .claiming .plain)).map (fun t => (t.port.map PortTransaction.owner, (t.link .a).patience.apply)) =
    some (some .host, 1) := by decide
/-- Step 1 of Example 6-1 at SENIOR rank: the grant is also the capture, with a pending entry without frame number. -/
theorem test_arbiterChoice_capture : (after .arbiterChoice (hosting (up .senior) ⟨.write 0xAA, 0x80010, 15⟩ (.window 2 16)
    .claiming .capturing)).map (fun t => ((t.link .a).capture.queue, (t.link .a).conflict.table, t.host.captured)) =
    some ([.record (.write 5 16 15 0xAA)], [{ tag := 5, offset := 16, frame := none }], true) := by decide
/-- Step 9 of Example 5-1: an apply write ends with FAULT, the import side goes STALE. -/
theorem test_memoryCompletion : (after (.memoryCompletion .fault) { onA (queued (up .junior) [.write 3 10 15 1]) (fun k =>
      { k with apply := { k.apply with outstanding := .forWindow 1 } }) with
      port := some { owner := .apply .a, kind := .write 1, addr := 0x4040A, mask := 15 } }).map (fun t =>
      ((t.link .a).apply.queue, t.events, (t.window 1).bind Window.importSide, t.port)) =
    some ([], [.windowStale 1 .importSide .applyFault], some .stale, none) := by decide
/-- The data of a sweep read fills the placeholder, and the engine goes on (step 2 of Example 7-1). -/
theorem test_memoryCompletion_sweep : (after (.memoryCompletion (.ok 0x55)) { onA (sweeping (up .junior) .reading 0) (fun k =>
      { k with sweep := { k.sweep with read := .current }, capture := { k.capture with queue := [.placeholder 3 0] } }) with
      port := some { owner := .sweep .a, kind := .read, addr := 0x40000, mask := 15 } }).map (fun t =>
      ((t.link .a).capture.queue.head?, (t.link .a).sweep.active.map ActiveSweep.next)) =
    some (some (.record (.write 3 0 15 0x55)), some 1) := by decide
/-- Step 11 of Example 5-1: SWEEP_CLOSE at a STALE side has no effect, and the record leaves. -/
theorem test_controlRecord : (after (.controlRecordDecision .a) ((queued (up .junior) [.sweepClose 3]).modWindow 1
    (·.withImport .stale))).map (fun t => ((t.link .a).apply.queue, (t.window 1).bind Window.importSide, t.events)) =
    some ([], some .stale, []) := by decide
/-- Step 6 of Example 8-2: SWEEP_OPEN makes the side FILLING. -/
theorem test_controlRecord_open : (after (.controlRecordDecision .a) (queued (up .junior) [.sweepOpen 3])).map (fun t =>
    (t.window 1).bind Window.importSide) = some (some .filling) := by decide

/-! ## Frames and the transmitter (Examples 3-1, 3-2, 6-1, 9-1) -/

/-- Step 7 of Example 9-1: a STALE item and the 15 oldest records, 33 left. -/
theorem test_frameBuild : (after (.frameBuild .a) (onA ((captured (up .junior) 48).modWindow 0 fun w => { w with notice := true })
    fun k => { k with capture := { k.capture with flushDue := true } })).map (fun t =>
      ((t.link .a).capture.queue.length, (t.link .a).tx.retransmit.map fun f => (f.items.length, f.items.head?))) =
    some (33, [(16, some (.stale 3))]) := by decide
/-- Step 3 of Example 6-1: frame 10 carries seen 7, and the entry takes number 10. -/
theorem test_frameBuild_numbers : (after (.frameBuild .a) (onA (up .senior) fun k => { k with
    capture := { k.capture with queue := [.record (.write 5 16 15 0xAA)], flushDue := true }
    tx := { k.tx with nextSend := 10, oldest := 10 }, rx := { k.rx with receiveExpected := 7 }
    conflict := { table := [{ tag := 5, offset := 16, frame := none }], horizon := 10 } })).map (fun t =>
      ((t.link .a).tx.retransmit.map fun f => (f.seq, f.seen), (t.link .a).conflict.table.map PendingWrite.frame)) =
    some ([(10, 7)], [some 10]) := by decide
theorem test_flushTimer : (after (.flushTimerExpiry .a) (onA (up .junior) fun k => { k with
    capture := { k.capture with flushTimer := .running 0 } })).map (fun t =>
      ((t.link .a).capture.flushDue, (t.link .a).capture.flushTimer)) = some (true, .stopped) := by decide
/-- Step 4 of Example 3-1: frame 5 starts at the choice point after an IDLE, the ack timer from 400. -/
theorem test_choicePoint : (after (.transmitChoicePoint .a) (listed (up .junior) [frame 5 false, frame 6 false] 5)).map (fun t =>
    ((t.link .a).tx.retransmit.map Frame.sent, (t.link .a).tx.output, (t.link .a).tx.ackTimer)) =
    some ([true, false], .frame (frame 5 true), .running 400) := by decide
/-- Step 3 of Example 3-1: after a frame the choice is an IDLE. -/
theorem test_frameEnd : (after (.frameEnd .a) (onA (listed (up .junior) [frame 7 true] 7) fun k => { k with
    tx := { k.tx with output := .frame (frame 7 true) } })).map (fun t => (t.link .a).tx.output) =
    some (.symbol (idleSymbol 0 8 false)) := by decide
/-- The last row of Example 3-2: count 3 is above 2, NO_PROGRESS. -/
theorem test_ackTimer : (after (.ackTimerExpiry .a) (onA (listed (up .junior) [frame 20 true] 20) fun k => { k with
    config := { k.config with retryLimit := 2 }, tx := { k.tx with retryCount := 2, ackTimer := .running 0 } })).map (fun t =>
      (t.linkState .a, (t.link .a).tx.retransmit, t.events)) =
    some (.fault, [], [.linkFault .a .noProgress]) := by decide
/-- R50: a timer that progress has restarted is not run out, and a waiting expiry does not happen. -/
theorem test_ackTimer_restarted : (after (.ackTimerExpiry .a) (listed (up .junior) [frame 20 true] 20)).map (fun t =>
      ((t.link .a).tx.retransmit, (t.link .a).tx.retryCount)) = some ([frame 20 true], 0) := by decide
/-- Step 2 of Example 3-1: NAK 5 names the head, go-back. -/
theorem test_symbol_nak : (after (.symbolArrival .a 0xB4500) (listed (up .junior) [frame 5 true, frame 6 true] 5)).map (fun t =>
    ((t.link .a).tx.retransmit.map Frame.sent, (t.link .a).tx.retryCount, (t.link .a).tx.ackTimer)) =
    some ([false, false], 1, .stopped) := by decide

/-! ## The receiver (Examples 4-1 and 4-2) -/

/-- Step 7 of Example 4-2: the third HELLO aligns the receiver and is then handled in TRAINING. -/
theorem test_symbol_aligns : (after (.symbolArrival .a 0xB8320) (onA (inState board .hunting) fun k => { k with
    rx := { k.rx with huntRun := 2, silenceTimer := .running 20 } })).map (fun t =>
      (t.linkState .a, (t.link .a).rx.alignment, (t.link .a).control.peer)) =
    some (.training, .aligned, some { id := 12, acceptance := .sixteen }) := by decide
/-- Step 9 of Example 8-1: silence at an UP link is line loss. -/
theorem test_silence : (after (.silenceTimerExpiry .a) (onA (up .junior) fun k => { k with
    rx := { k.rx with silenceTimer := .running 0 } })).map (fun t => (t.linkState .a, t.events)) =
    some (.fault, [.linkFault .a .lineLost]) := by decide
/-- Step 5 of Example 6-1 from the line: frame 10 arrives symbol by symbol and is taken. -/
theorem test_frame_taken : (runAll ([0x92870, 0xA03F0, 0xA0010, 0xA0000, 0xA00AA, 0xACEB3].map (Instr.symbolArrival .a))
    (onA (up .junior) fun k => { k with rx := { k.rx with receiveExpected := 10 } })).map (fun t =>
      ((t.link .a).apply.queue.map ApplyEntry.record, (t.link .a).rx.receiveExpected)) =
    some ([.write 3 16 15 0xAA], 11) := by decide +kernel

/-! ## The step -/

/-- With no command waiting, the flush timer runs out and its expiry is queued. -/
theorem test_tick : (match step (onA State.reset fun k => { k with capture := { k.capture with flushTimer := .running 1 } }) with
    | .next t => some (t.pending, (t.link .a).capture.flushTimer)
    | _ => none) = some ([.flushTimerExpiry .a], .running 0) := by decide

end Sys2Proof.Tests
end

