-- ==== Sys2Proof/Tests/Witness.lean ====
section
/-! SUPPORT. For every statement with hypotheses, concrete states and operands that meet them, each clause at a boundary of
its range. -/

namespace Sys2Proof.Tests

open Machine

/-! ## States the witnesses share -/

/-- A write of 1 to word 0 of window 0, and to word 0 of window 2. -/
def write0 : Access := ⟨.write 1, 0x40000, 15⟩
def write2 : Access := ⟨.write 1, 0x80000, 15⟩

/-- Link A in LOOP mode. -/
def looped (s : State) : State := onA s fun k => { k with config := { k.config with mode := .loop } }

/-- Link A's peer-hold-limit, training, silence and flush timers run out, their expiries waiting. -/
def timed (s : State) : State := onA s fun k => { k with
  control := { k.control with trainingTimer := .running 0, peerHoldTimer := .running 0 }
  rx := { k.rx with silenceTimer := .running 0 }, capture := { k.capture with flushTimer := .running 0 } }

/-- The memory port busy for this owner. -/
def porting (s : State) (o : Owner) : State := { s with port := some { owner := o, kind := .write 1, addr := 0, mask := 15 } }

/-- One WRITE record for word `o` of tag `t`. -/
def w1 (t : Tag) (o : Offset) : Record := .write t o 15 1

theorem taking : node7.Taking none := ⟨rfl, rfl⟩
theorem takingBoard : board.Taking none := ⟨by decide, by decide⟩
theorem takingUp (r : Rank) : (up r).Taking none := by cases r <;> exact ⟨by decide, by decide⟩

theorem board_table : board.TableLaw := State.tableLaw_of_check (by decide)
theorem up_table (r : Rank) : (up r).TableLaw := State.tableLaw_of_check (by cases r <;> decide)
theorem up_sweep (r : Rank) : (up r).SweepLaw := State.sweepLaw_of_check (by cases r <;> decide)
theorem sweeping_sweep (p : SweepPhase) : (sweeping (up .junior) p 0).SweepLaw :=
  State.sweepLaw_of_check (by cases p <;> decide)

/-! ## The step and the requests -/

theorem witness_StepRunsFront : ({ State.reset with pending := [.nop, .resetEnd] } : State).pending = [.nop, .resetEnd] := rfl

/-- Two timers that have run out, one of them with its last tick, and hardware reset. -/
theorem witness_StepWithoutCommandTicks :
    (let s := onA (timed (up .junior)) fun k => { k with tx := { k.tx with ackTimer := .running 1 } }
     s.pending = [] ∧ s.inReset = false ∧ (s.link .a).capture.flushTimer = .running 0 ∧
     (s.link .a).tx.ackTimer = .running 1) ∧ ({ node7 with inReset := true } : State).inReset = true := by decide

/-- No link drained; a drained link A; link A in LOOP mode with its second frame unsent, and with every frame sent; the room
test with the capture no longer made, with the last slot free, and with none. -/
theorem witness_FinishSettles :
    (up .junior).linkState .a ≠ .draining ∧ (up .junior).linkState .b ≠ .draining ∧
    (let s := inState (up .junior) .draining
     s.SweepLaw ∧ s.linkState .a = .draining ∧ (s.link .a).capture.queue = [] ∧ (s.link .a).tx.retransmit = [] ∧
     ∀ i, ∀ w ∈ s.window i, w.link = .a → w.notice = false) ∧
    (let s := looped (listed (up .self) [frame 4 true, frame 5 false] 4)
     let s := onA s fun k => { k with tx := { k.tx with output := .rest } }
     s.linkState .b ≠ .draining ∧ (s.link .a).config.mode = .loop ∧ s.linkState .a = .up ∧ (s.link .a).tx.output = .rest ∧
     (s.link .a).apply.holdFlag = false ∧ (s.link .a).tx.retransmit = [frame 4 true] ++ frame 5 false :: []) ∧
    (∀ f ∈ ((up .junior).link .a).tx.retransmit, f.sent = true) ∧
    ¬ ((up .junior).host.handling = some .capturing) ∧
    (let s := hosting board write0 (.window 0 0) .waitRoom .capturing
     s.host.handling = some .capturing ∧ s.host.phase = .waitRoom ∧ s.hostCaptureMade = false ∧
     s.linkState .a ≠ .draining) ∧
    (let s := hosting (captured (up .junior) 47) write0 (.window 0 0) .waitRoom .capturing
     s.hostCaptureMade = true ∧ s.hostEligible = true ∧ s.linkState .a ≠ .draining) ∧
    (let s := hosting (captured (up .junior) 48) write0 (.window 0 0) .claiming .capturing
     s.host.phase = .claiming ∧ s.hostCaptureMade = true ∧ s.hostEligible = false) :=
  ⟨by decide, by decide, ⟨State.sweepLaw_of_check (by decide), by decide⟩, by decide, by decide, by decide, by decide,
    by decide, by decide⟩

theorem witness_RequestTakenOnce : (commandCode .softReset).isSome = true ∧ State.reset.canTake = false ∧
    node7.Taking none ∧ 0x11 ≤ (0x11 : Byte).toNat ∧ 0x11 ≤ (0xFF : Byte).toNat :=
  ⟨by decide, by decide, taking, by decide, by decide⟩

theorem witness_IdentityAndConfigRead : node7.Taking none := taking

/-- Legal at the ends of the ranges; illegal one past them; frozen by an UP link. -/
theorem witness_PartConfigSetChecks : (up .junior).Taking none ∧
    (let f : PartConfigFields := ⟨254, 1, 16, 64, 0x7F⟩
     (f.nodeId.toNat ≤ 254 ∧ 1 ≤ f.holdLimit.toNat ∧ (1 ≤ f.applyShare.toNat ∧ f.applyShare.toNat ≤ 16) ∧
      (1 ≤ f.sweepShare.toNat ∧ f.sweepShare.toNat ≤ 64) ∧ f.mask.getLsbD 7 = false) ∧
     f.nodeId ≠ (up .junior).config.nodeId ∧ ((up .junior).linkState .a).running = true ∧
     ¬ ((board.linkState .a).running = true ∨ (board.linkState .b).running = true)) ∧
    ¬ ((255 : Byte).toNat ≤ 254) ∧ ¬ (1 ≤ (0 : Byte).toNat) ∧ ¬ ((17 : Byte).toNat ≤ 16) ∧ ¬ ((65 : Byte).toNat ≤ 64) ∧
    ¬ ((0x80 : Byte).getLsbD 7 = false) := ⟨takingUp _, by decide, by decide, by decide, by decide, by decide, by decide⟩

/-- A legal WINDOW_SET description: 256 bytes at this base on link A, EXPORT. -/
def fields (base : BitVec 32) (tag : Byte) : WindowFields := ⟨base, 0, 0, 0, tag, 0, 0⟩

theorem fields_legal : (fields 0x101100 3).Legal ∧ (fields 0x101100 4).Legal ∧ (fields 0x100F00 4).Legal :=
  ⟨by constructor <;> decide, by constructor <;> decide, by constructor <;> decide⟩

/-- Index 16 and 15; a valid entry; an illegal base; a region sharing the last 256 bytes of window 0; a region that touches
window 1 with the tag of window 0, and with a free one. -/
theorem witness_WindowSetChecks : board.Taking none ∧ 15 < (16 : Byte).toNat ∧ (15 : Byte).toNat = (15 : Index).val ∧
    (board.window 0).isSome = true ∧ board.window 15 = none ∧ ¬ (fields 0x101101 4).Legal ∧
    (fields 0x100F00 4).Overlaps board ∧ ¬ (fields 0x101100 3).Overlaps board ∧ (fields 0x101100 3).TagInUse board ∧
    ¬ (fields 0x101100 4).Overlaps board ∧ ¬ (fields 0x101100 4).TagInUse board := by
  have apart : ∀ i, ∀ v ∈ board.window i, ¬ (v.base < 0x101200 ∧ 0x101100 < v.base + v.size) := by
    have h : board.allWindows (fun _ v => decide (¬ (v.base < 0x101200 ∧ 0x101100 < v.base + v.size))) = true := by decide
    intro i v hv
    exact of_decide_eq_true ((State.allWindows_iff _ _).1 h i v hv)
  have tags : ∀ i, ∀ v ∈ board.window i, v.tag.toNat ≠ 4 := by
    have h : board.allWindows (fun _ v => decide (v.tag.toNat ≠ 4)) = true := by decide
    intro i v hv
    exact of_decide_eq_true ((State.allWindows_iff _ _).1 h i v hv)
  have none_at : ∀ t, ¬ (fields 0x101100 t).Overlaps board := by
    rintro t ⟨i, v, hv, x, ⟨h1, h2⟩, h3, h4⟩
    apply apart i v hv
    simp [fields] at h3 h4
    omega
  refine ⟨takingBoard, by decide, by decide, by decide, by decide, fun h => absurd h.base (by decide), ?_, none_at 3, ?_,
    none_at 4, ?_⟩
  · exact ⟨0, exportWindow, by decide, 0x100F00, by decide, by decide, by decide⟩
  · exact ⟨0, exportWindow, by decide, by decide, by decide, .inl ⟨by decide, by decide⟩⟩
  · rintro ⟨i, v, hv, _, ht, _⟩
    exact tags i v hv ht

/-- An OFF entry, a valid one, and the index and the link value past the last. -/
theorem witness_TableAndLinkRead : board.Taking none ∧ 15 < (16 : Byte).toNat ∧ (15 : Byte).toNat = (15 : Index).val ∧
    board.window 15 = none ∧ (0 : Byte).toNat = (0 : Index).val ∧ board.window 0 = some exportWindow ∧
    1 < (2 : Byte).toNat := ⟨takingBoard, by decide, by decide, by decide, by decide, by decide, by decide⟩

/-- An OFF entry; the swept EXPORT window; the IMPORT window with its head outstanding, decided against it, and an access
elsewhere; the SHARED window with a held access; the SHARED window with an access IN_MEMORY and its record the head. -/
theorem witness_WindowClearSettles :
    (up .junior).Taking none ∧ 15 < (16 : Byte).toNat ∧ (up .junior).window 15 = none ∧
    (let s := sweeping (up .junior) .reading 0
     s.TableLaw ∧ s.SweepLaw ∧ s.HostLaw ∧ ∃ w, s.window 0 = some w ∧ w.direction = .exports ∧
       (s.link w.link).sweep.active.map ActiveSweep.window = some 0) ∧
    (let s := hosting (onA (queued (up .junior) [w1 3 0, w1 3 1, w1 5 0]) fun k => { k with
       apply := { k.apply with outstanding := .forWindow 1 } }) write0 (.window 0 0) .claiming .capturing
     s.TableLaw ∧ s.SweepLaw ∧ s.HostLaw ∧ ∃ w, s.window 1 = some w ∧ w.direction ≠ .exports ∧
       (s.link w.link).apply.outstanding = .forWindow 1 ∧ s.host.classification = some (.window 0 0)) ∧
    (let s := hosting (queued (up .junior) [w1 5 0]) write2 (.window 2 0) .claiming .capturing
     s.TableLaw ∧ s.SweepLaw ∧ s.HostLaw ∧ ∃ w, s.window 2 = some w ∧ w.direction = .shared ∧
       (s.link w.link).apply.outstanding = .none ∧ s.host.classification = some (.window 2 0) ∧
       s.host.phase.held = true) ∧
    (let s := porting (hosting (queued (up .junior) [w1 5 0, w1 3 0]) write2 (.window 2 0) .inMemory .capturing) .host
     s.TableLaw ∧ s.SweepLaw ∧ s.HostLaw ∧ ∃ w, s.window 2 = some w ∧ w.direction = .shared ∧
       (s.link w.link).apply.outstanding = .none ∧ s.host.classification = some (.window 2 0) ∧
       s.host.phase = .inMemory) := by
  refine ⟨takingUp _, by decide, by decide, ?_, ?_, ?_, ?_⟩
  all_goals refine ⟨State.tableLaw_of_check (by decide), State.sweepLaw_of_check (by decide),
    State.hostLaw_of_check (by decide), _, rfl, ?_⟩
  all_goals decide

/-! ## Links -/

/-- Every field at an end of its range. -/
def linkFields (n : Byte) : LinkFields := ⟨1, 2, 16, n, 1023, 4095, 15, 2, 1, 31, 1⟩

theorem witness_LinkSetChecks : node7.Taking none ∧ 1 < (2 : Byte).toNat ∧ ((up .junior).linkState .a).running = true ∧
    (node7.linkState .a).running = false ∧ (linkFields 8).Legal ∧ ¬ (linkFields 9).Legal :=
  ⟨taking, by decide, by decide, by decide, by constructor <;> decide, fun h => absurd h.inFlightLimit (by decide)⟩

theorem witness_LinkEnableHunts : node7.Taking none ∧ 1 < (2 : Byte).toNat ∧ ((up .junior).linkState .a).running = true ∧
    (node7.linkState .a).running = false ∧ ({ node7 with config := PartConfig.reset } : State).config.nodeId = 0 ∧
    node7.config.nodeId ≠ 0 ∧ (node7.link .a).config.mode = .normal :=
  ⟨taking, by decide, by decide, by decide, by decide, by decide, by decide⟩

theorem witness_LinkEnableLoops : (looped node7).Taking none ∧ ((looped node7).linkState .a).running = false ∧
    (looped node7).config.nodeId ≠ 0 ∧ ((looped node7).link .a).config.mode = .loop :=
  ⟨⟨by decide, by decide⟩, by decide, by decide, by decide⟩

theorem witness_LinkDisableByState : (up .junior).Taking none ∧ (up .junior).SweepLaw ∧
    (sweeping (up .junior) .reading 0).SweepLaw ∧ (inState (up .junior) .draining).SweepLaw ∧ board.SweepLaw ∧
    (inState board .fault).SweepLaw ∧ 1 < (2 : Byte).toNat ∧ board.linkState .a = .disabled ∧
    (inState (up .junior) .draining).linkState .a = .draining ∧ (up .junior).linkState .a = .up ∧
    (inState board .fault).linkState .a = .fault ∧ (1 : Byte) ≠ 0 :=
  ⟨takingUp _, up_sweep _, sweeping_sweep _, State.sweepLaw_of_check (by decide), State.sweepLaw_of_check (by decide),
    State.sweepLaw_of_check (by decide), by decide, by decide, by decide, by decide, by decide, by decide⟩

/-- Link A drained, the other link not DRAINING; link A with an entry left. -/
theorem witness_DrainCompletes :
    (let s := inState (up .junior) .draining
     s.SweepLaw ∧ s.linkState .a = .draining ∧ (s.link .a).capture.queue = [] ∧ (s.link .a).tx.retransmit = [] ∧
     (∀ i, ∀ w ∈ s.window i, w.link = .a → w.notice = false) ∧ s.linkState (otherLink .a) ≠ .draining) ∧
    (let s := captured (inState (up .junior) .draining) 1
     s.SweepLaw ∧ s.linkState .a = .draining ∧ (s.link .a).capture.queue ≠ [] ∧ s.linkState (otherLink .a) ≠ .draining) :=
  ⟨⟨State.sweepLaw_of_check (by decide), by decide⟩, ⟨State.sweepLaw_of_check (by decide), by decide⟩⟩

theorem witness_FlushSetsFlushDue : (up .junior).Taking none ∧ 1 < (2 : Byte).toNat ∧ (up .junior).linkState .b ≠ .up ∧
    (up .junior).linkState .b ≠ .draining ∧ (up .junior).linkState .a = .up :=
  ⟨takingUp _, by decide, by decide, by decide, by decide⟩

theorem witness_LinkTimerExpiryFaults :
    (let s := timed (inState board .training)
     s.inReset = false ∧ s.SweepLaw ∧ s.linkState .a = .training ∧ (s.link .a).control.trainingTimer = .running 0) ∧
    (let s := timed (up .junior)
     s.inReset = false ∧ s.SweepLaw ∧ s.linkState .a = .up ∧ (s.link .a).control.peerHoldTimer = .running 0) ∧
    (let s := onA board fun k => { k with control := { k.control with trainingTimer := .running 1 } }
     s.inReset = false ∧ s.SweepLaw ∧ (s.link .a).control.trainingTimer ≠ .running 0 ∧
     (s.link .a).control.peerHoldTimer ≠ .running 0) :=
  ⟨⟨by decide, State.sweepLaw_of_check (by decide), by decide, by decide⟩,
    ⟨by decide, State.sweepLaw_of_check (by decide), by decide, by decide⟩,
    ⟨by decide, State.sweepLaw_of_check (by decide), by decide, by decide⟩⟩

/-! ## Sweeps -/

/-- Index 16, an OFF entry, an IMPORT window, a link not UP, an active engine, an IN_STEP side; a plain write in
CLAIMING, and a read. -/
theorem witness_SweepStartChecks : (up .junior).Taking none ∧ 15 < (16 : Byte).toNat ∧ (up .junior).window 15 = none ∧
    (up .junior).window 1 = some importWindow ∧ importWindow.direction = .imports ∧ board.linkState .a ≠ .up ∧
    (up .junior).window 0 = some exportWindow ∧ exportWindow.direction ≠ .imports ∧ (up .junior).linkState .a = .up ∧
    ((sweeping (up .junior) .reading 0).link .a).sweep.active.isSome = true ∧
    ((up .junior).link .a).sweep.active = none ∧ exportWindow.exportSide = some .inStep ∧
    (let s := hosting (captured (up .junior) 47) write0 (.window 0 0) .claiming .plain
     s.host.phase = .claiming ∧ s.host.handling = some .plain ∧ s.host.classification = some (.window 0 0) ∧
     s.host.access.map Access.kind = some (.write 1) ∧ (s.link .a).capture.queue.length < 48) ∧
    (let s := hosting (captured (up .junior) 48) ⟨.read, 0x40000, 15⟩ (.window 0 0) .claiming .plain
     s.host.access.map Access.kind = some .read ∧ ¬ (s.link .a).capture.queue.length < 48) :=
  ⟨takingUp _, by decide, by decide, by decide, by decide, by decide, by decide, by decide, by decide, by decide, by decide,
    by decide, by decide, by decide⟩

theorem witness_SweepAbortByCommand : (sweeping (up .junior) .reading 0).Taking none ∧
    (sweeping (up .junior) .reading 0).SweepLaw ∧ 15 < (16 : Byte).toNat ∧ (sweeping (up .junior) .reading 0).window 15 = none ∧
    ((sweeping (up .junior) .reading 0).link .a).sweep.active.map ActiveSweep.window = some 0 ∧
    (∃ w, (sweeping (up .junior) .reading 0).window 0 = some w ∧ w.link = .a) ∧
    (∃ w, (sweeping (up .junior) .reading 0).window 2 = some w ∧
      ((sweeping (up .junior) .reading 0).link w.link).sweep.active.map ActiveSweep.window ≠ some 2) :=
  ⟨⟨by decide, by decide⟩, sweeping_sweep _, by decide, by decide, by decide, ⟨_, rfl, by decide⟩, ⟨_, rfl, by decide⟩⟩

theorem witness_SweepMarkersQueued (p : SweepPhase) (n : Nat) (h : n = 47 ∨ n = 48) :
    let s := sweeping (captured (up .junior) n) p 0
    s.inReset = false ∧ (s.link .a).sweep.active = some { phase := p, window := 0, next := 0 } ∧ (s.window 0).isSome = true ∧
      (s.link .a).capture.queue.length = n := by
  rcases h with rfl | rfl <;> cases p <;> decide

/-! ## Events, transactions and resets -/

theorem witness_EventPopAndClear : node7.Taking none ∧ node7.events = [] ∧
    ({ node7 with events := [.linkDisabled .a] } : State).Taking none := ⟨taking, by decide, ⟨rfl, rfl⟩⟩

/-- An event of each kind at the head of the queue. -/
theorem witness_EventEntryBytes (e : Event) : ({ node7 with events := [e] } : State).Taking none ∧
    ({ node7 with events := [e] } : State).events = e :: [] := ⟨⟨rfl, rfl⟩, rfl⟩

/-- A newest entry that merges, at a full count too; another event with 15 queued and with 16. -/
theorem witness_EventOfferedToQueue :
    ({ node7 with events := [.linkDisabled .a, .recordDiscarded .a 9 .unknownTag 255] } : State).events =
      [.linkDisabled .a] ++ [.recordDiscarded .a 9 .unknownTag 255] ∧
    (∀ q l t c n m, Event.linkDisabled .b = .recordDiscarded l t c m →
      List.replicate 15 (Event.linkDisabled .a) ≠ q ++ [.recordDiscarded l t c n]) ∧
    (List.replicate 15 (Event.linkDisabled .a)).length < 16 ∧ 16 ≤ (List.replicate 16 (Event.linkDisabled .a)).length :=
  ⟨rfl, fun _ _ _ _ _ _ h => by simp at h, by decide, by decide⟩

/-- A WINDOW_SET one byte short of its 12; the transactions that change nothing but themselves; one whose bytes spell
WINDOW_GET 3, and a byte after it. -/
theorem witness_TransactionBeginsAndEnds : State.reset.spi = .idle ∧ State.reset.inReset = false ∧
    node7.spi = .active none false ∧ requestLength 0x04 = some 12 ∧ (List.replicate 10 (0 : Byte)).length + 1 < 12 ∧
    ({ node7 with spi := .active none true } : State).spi = .active none true ∧
    ({ node7 with spi := .ignored } : State).spi = .ignored ∧ node7.Taking none ∧
    takeRequest [0x06, 3, 0xFF] = some (.windowGet 3) :=
  ⟨by decide, by decide, by decide, by decide, by decide, by decide, by decide, taking, by decide⟩

theorem witness_RequestBytesRoundTrip : (Instr.windowSet 0xFF ⟨0xFFFFFFFF, 1, 2, 3, 4, 5, 6⟩).wellFormed = true ∧
    requestBytes (.windowSet 0xFF ⟨0xFFFFFFFF, 1, 2, 3, 4, 5, 6⟩) =
      some [0x04, 0xFF, 0xFF, 0xFF, 0xFF, 0xFF, 1, 2, 3, 4, 5, 6] ∧
    (Instr.badCommand 0x11).wellFormed = true ∧ requestBytes (.badCommand 0x11) = some [0x11] := by decide

theorem witness_SoftResetBlocks : node7.Taking none ∧ node7.host.phase = .idle ∧
    (hosting node7 write0 .noWindow .inMemory .plain).host.phase = .inMemory := ⟨taking, by decide, by decide⟩

/-- A read; a write to the IMPORT window under each policy. -/
theorem witness_SoftResetReclassifies :
    (let s := hosting board ⟨.write 1, 0x40400, 15⟩ (.window 1 0) .waitDrain .refused
     s.Taking none ∧ s.host.phase.held = true ∧ s.host.access = some ⟨.write 1, 0x40400, 15⟩ ∧
     s.host.classification = some (.window 1 0) ∧ s.window 1 = some importWindow ∧ importWindow.policy = some .fault) ∧
    (let s := (hosting board ⟨.write 1, 0x40400, 15⟩ (.window 1 0) .waitDrain .dropped).setWindow 1
       (some { importWindow with policy := some .drop })
     s.Taking none ∧ s.window 1 = some { importWindow with policy := some .drop }) ∧
    (let s := hosting board ⟨.read, 0x40400, 1⟩ (.window 1 0) .waitRoom .plain
     s.Taking none ∧ s.host.phase.held = true ∧ s.host.access = some ⟨.read, 0x40400, 1⟩) :=
  ⟨⟨⟨by decide, by decide⟩, by decide, by decide, by decide, by decide, by decide⟩, ⟨⟨by decide, by decide⟩, by decide⟩,
    ⟨⟨by decide, by decide⟩, by decide, by decide⟩⟩

theorem witness_HardwareResetBlocks : (porting State.reset .nobody).inReset = false ∧
    (porting State.reset .nobody).port = some { owner := .nobody, kind := .write 1, addr := 0, mask := 15 } ∧
    ({ State.reset with inReset := true } : State).inReset = true ∧
    (∀ st, Instr.arbiterChoice ≠ .memoryCompletion st) ∧ (∀ b, Instr.arbiterChoice ≠ .transactionEnd b) ∧
    Instr.arbiterChoice ≠ .transactionBegin ∧ Instr.arbiterChoice ≠ .hardwareReset ∧ Instr.arbiterChoice ≠ .resetEnd :=
  ⟨by decide, by decide, rfl, by simp, by simp, by simp, by simp, by simp⟩

/-! ## Host accesses -/

/-- A busy port; lane mask 0; the word after the last of window 0's region is window 1's, and 0x40440 is in none; the last
word of the EXPORT window; the first word of the IMPORT window, without and with a WRITE record for it. -/
theorem witness_ArrivalClassified :
    (hosting board write0 .noWindow .claiming .plain).host.phase ≠ .idle ∧ board.inReset = false ∧
    board.host.phase = .idle ∧ write0.mask ≠ 0 ∧ (⟨.read, 0, 0⟩ : Access).mask = 0 ∧
    (∀ i, ∀ w ∈ board.window i, ¬ (w.base ≤ 4 * (0x40440 : WordAddr).toNat ∧
      4 * (0x40440 : WordAddr).toNat < w.base + w.size)) ∧
    board.TableLaw ∧ board.ArrivesAt ⟨.write 1, 0x403FF, 1⟩ 0 exportWindow ∧ exportWindow.direction = .exports ∧
    board.ArrivesAt ⟨.read, 0x40400, 8⟩ 1 importWindow ∧ ¬ (board.link .a).HasWriteFor 3 0 ∧
    (let s := queued board [w1 3 0, w1 3 0, w1 3 1]
     s.TableLaw ∧ s.ArrivesAt ⟨.read, 0x40400, 8⟩ 1 importWindow ∧ importWindow.direction ≠ .exports ∧
     (s.link .a).apply.queue = [⟨w1 3 0, some 0, false⟩] ++ ⟨w1 3 0, some 0, false⟩ :: [⟨w1 3 1, some 0, false⟩] ∧
     (w1 3 1).isWriteOf 3 0 = false) := by
  have far : ∀ i, ∀ w ∈ board.window i, ¬ (w.base ≤ 4 * (0x40440 : WordAddr).toNat ∧
      4 * (0x40440 : WordAddr).toNat < w.base + w.size) := by
    have h : board.allWindows (fun _ w => decide (¬ (w.base ≤ 4 * (0x40440 : WordAddr).toNat ∧
      4 * (0x40440 : WordAddr).toNat < w.base + w.size))) = true := by decide
    intro i w hw
    exact of_decide_eq_true ((State.allWindows_iff _ _).1 h i w hw)
  refine ⟨by decide, by decide, by decide, by decide, by decide, far, board_table, ?_, by decide, ?_, ?_,
    State.tableLaw_of_check (by decide), ?_, by decide, by decide, by decide⟩
  · constructor <;> decide
  · constructor <;> decide
  · rintro ⟨m, d, se, dr, h⟩
    have : (board.link .a).apply.queue = [] := by decide
    rw [this] at h
    cases h
  · constructor <;> decide

/-- A capturing write in WAIT_ROOM whose hold timer has run out. -/
def holdingRoom : State :=
  let s := hosting (up .junior) write0 (.window 0 0) .waitRoom .capturing
  { s with host := { s.host with holdTimer := .running 0 } }

theorem witness_HoldExpiryPassesUncaptured :
    (let s := holdingRoom
     s.inReset = false ∧ s.host.phase = .waitRoom ∧ s.host.holdTimer = .running 0 ∧
     s.host.classification = some (.window 0 0) ∧ s.window 0 = some exportWindow ∧ s.SweepLaw) ∧
    board.inReset = false ∧ board.host.phase ≠ .waitRoom ∧ board.host.holdTimer ≠ .running 0 :=
  ⟨⟨by decide, by decide, by decide, by decide, by decide, State.sweepLaw_of_check (by decide)⟩, by decide, by decide,
    by decide⟩

/-- One record with no access waiting, and with the waiting access's drain point on it. -/
theorem witness_HeadRecordLeaves :
    (let s := queued (up .junior) [w1 3 0]
     (s.link .a).apply.queue = [⟨w1 3 0, some 0, false⟩] ∧ s.host.phase ≠ .waitDrain) ∧
    (let s := hosting (onA (up .junior) fun k => { k with apply := { k.apply with queue := [⟨w1 3 0, some 0, true⟩] } })
       ⟨.read, 0x40400, 15⟩ (.window 1 0) .waitDrain .plain
     (s.link .a).apply.queue = [⟨w1 3 0, some 0, true⟩] ∧ s.host.phase = .waitDrain ∧
     (s.link .b).apply.queue = [] ∧ s.host.access = some ⟨.read, 0x40400, 15⟩ ∧
     s.host.classification = some (.window 1 0) ∧ s.window 1 = some importWindow ∧ s.TableLaw) :=
  ⟨by decide, ⟨by decide, by decide, by decide, by decide, by decide, by decide, State.tableLaw_of_check (by decide)⟩⟩

/-! ## The memory port -/

theorem witness_ClaimTests : board.host.handling ≠ some .capturing ∧
    (let s := hosting (captured (up .junior) 48) write0 (.window 0 0) .waitRoom .capturing
     s.host.handling = some .capturing ∧ s.host.classification = some (.window 0 0) ∧ s.window 0 = some exportWindow) := by
  decide

/-- One state for each step of the choice, and one for none. -/
theorem witness_GrantOrder :
    (let s := onA (queued (up .junior) (List.replicate 16 (w1 3 0))) id
     s.applyPointer = .a ∧ (s.link .a).applyClaim = true ∧ (s.link .a).config.holdMark ≤ (s.link .a).apply.queue.length) ∧
    (let s := onA (queued (up .junior) [w1 3 0]) fun k => { k with patience := { apply := 4, sweep := 0 } }
     (s.link .a).urgent = false ∧ (s.link .b).applyClaim = false ∧ (s.link .a).applyClaim = true ∧
     s.config.applyShare ≤ (s.link .a).patience.apply) ∧
    (let s := onA (sweeping (up .junior) .reading 0) fun k => { k with patience := { apply := 0, sweep := 16 } }
     (s.link .a).applyClaim = false ∧ (s.link .b).applyClaim = false ∧ s.sweepEligible .a = true ∧
     s.config.sweepShare ≤ (s.link .a).patience.sweep) ∧
    (let s := hosting (up .junior) write0 (.window 0 0) .claiming .capturing
     s.host.phase = .claiming ∧ s.hostEligible = true) ∧
    (let s := queued (up .junior) [w1 3 0]
     (s.link .a).applyClaim = true ∧ (s.link .a).urgent = false ∧ s.host.phase ≠ .claiming) ∧
    (let s := sweeping (up .junior) .reading 0
     s.sweepEligible .a = true ∧ s.sweepEligible .b = false ∧ s.host.phase ≠ .claiming) ∧
    board.choose = none ∧ (porting board .host).port.isSome = true := by decide

/-- A plain read; a capture that enters at the tail; one that merges. -/
theorem witness_HostGrant :
    (let s := hosting board ⟨.read, 0, 15⟩ .noWindow .claiming .plain
     s.inReset = false ∧ s.port = none ∧ s.choose = some .host ∧ s.host.access = some ⟨.read, 0, 15⟩ ∧
     s.host.handling ≠ some .capturing) ∧
    (let s := hosting (up .senior) write2 (.window 2 0) .claiming .capturing
     s.port = none ∧ s.choose = some .host ∧ s.host.access = some write2 ∧ s.host.handling = some .capturing ∧
     s.window 2 = some sharedWindow ∧ sharedWindow.exportSide = some .inStep ∧ (s.linkState .a).running = true ∧
     sharedWindow.coalesce ≠ some true) ∧
    (let s := hosting (onA (up .junior) fun k => { k with
       capture := { k.capture with queue := List.replicate 47 (.record (.sweepOpen 3)) ++ [.record (w1 3 0)] } })
       ⟨.write 2, 0x40000, 1⟩ (.window 0 0) .claiming .capturing
     s.port = none ∧ s.choose = some .host ∧ s.window 0 = some exportWindow ∧ exportWindow.coalesce = some true ∧
     (s.link .a).capture.queue = List.replicate 47 (.record (.sweepOpen 3)) ++ .record (w1 3 0) :: []) := by decide

theorem witness_SweepGrant :
    let s := sweeping (captured (up .junior) 47) .reading 1023
    s.inReset = false ∧ s.port = none ∧ s.choose = some (.sweep .a) ∧
      s.sweepClaim .a = some (0, exportWindow.withExport .sweeping, 1023) := by decide

/-- No window of tag 9; the first offset beyond the window and its last word; a pending entry at SENIOR rank. -/
theorem witness_WriteRecordDecided :
    (let s := queued (up .junior) [w1 9 0]
     s.inReset = false ∧ s.port = none ∧ s.choose = some (.apply .a) ∧
     (s.link .a).apply.queue = [⟨w1 9 0, some 0, false⟩] ∧
     ∀ i, ∀ w ∈ s.window i, w.link = .a → w.importSide.isSome = true → w.tag ≠ 9) ∧
    (let s := queued (up .junior) [w1 3 64]
     s.TableLaw ∧ s.choose = some (.apply .a) ∧ s.window 1 = some importWindow ∧ importWindow.size ≤ 4 * (64 : Offset).toNat) ∧
    (let s := queued (up .junior) [w1 3 63]
     s.TableLaw ∧ s.choose = some (.apply .a) ∧ 4 * (63 : Offset).toNat < importWindow.size) ∧
    (let s := onA (queued (up .senior) [w1 5 0]) fun k => { k with
       conflict := { table := [{ tag := 5, offset := 0, frame := none }], horizon := 0 } }
     s.TableLaw ∧ s.choose = some (.apply .a) ∧ s.window 2 = some sharedWindow ∧ sharedWindow.direction = .shared ∧
     (s.link .a).control.rank = .senior ∧ (s.link .a).conflict.hasEntry 5 0 = true) :=
  ⟨⟨by decide, by decide, by decide, by decide, by decide⟩,
    ⟨State.tableLaw_of_check (by decide), by decide, by decide, by decide⟩,
    ⟨State.tableLaw_of_check (by decide), by decide, by decide⟩,
    ⟨State.tableLaw_of_check (by decide), by decide, by decide, by decide, by decide, by decide⟩⟩

theorem witness_HostAccessCompletes : board.port = none ∧
    let s := porting { hosting (up .junior) write0 (.window 0 0) .inMemory .capturing with
      host := { (hosting board write0 (.window 0 0) .inMemory .capturing).host with captured := true } } .host
    s.inReset = false ∧ s.port = some { owner := .host, kind := .write 1, addr := 0, mask := 15 } ∧
      s.host.captured = true ∧ s.host.classification = some (.window 0 0) ∧ s.window 0 = some exportWindow ∧ s.SweepLaw ∧
      (hosting (up .junior) write0 .noWindow .inMemory .plain).host.captured = false :=
  ⟨by decide, by decide, by decide, by decide, by decide, by decide, State.sweepLaw_of_check (by decide), by decide⟩

/-- Link A with an apply write at the port, decided against window 1. -/
def applying (x : ApplyWrite) : State :=
  porting (onA (queued (up .junior) [w1 3 0]) fun k => { k with apply := { k.apply with outstanding := x } }) (.apply .a)

theorem witness_ApplyWriteCompletes :
    (applying .none).inReset = false ∧ ((applying .none).port.map PortTransaction.owner = some (.apply .a)) ∧
    ((applying .none).link .a).apply.outstanding = .none ∧
    ((applying .windowCleared).link .a).apply.outstanding = .windowCleared ∧
    ((applying (.forWindow 1)).link .a).apply.outstanding = .forWindow 1 ∧
    (({ applying (.forWindow 1) with port := none } : State).popApply .a).window 1 = some importWindow ∧
    importWindow.importSide = some .inStep ∧
    ((({ applying (.forWindow 1) with port := none } : State).modWindow 1 (·.withImport .stale)).popApply .a).window 1 =
      some { importWindow with importSide := some .stale } := by decide

/-- A current read of the last word with its placeholder; an orphan read with its placeholder, and without; no
read, after a soft reset. -/
theorem witness_SweepReadCompletes :
    (let s := porting (onA (sweeping (up .junior) .reading 1023) fun k => { k with
       sweep := { k.sweep with read := .current }, capture := { k.capture with queue := [.placeholder 3 1023] } }) (.sweep .a)
     s.inReset = false ∧ s.port.map PortTransaction.owner = some (.sweep .a) ∧ s.PlaceholderLaw ∧ s.SweepLaw ∧
     (s.link .a).sweep.read = .current ∧
     (s.link .a).sweep.active = some { phase := .reading, window := 0, next := 1023 } ∧
     s.window 0 = some (exportWindow.withExport .sweeping) ∧
     (s.link .a).capture.queue = [] ++ .placeholder 3 1023 :: []) ∧
    (let s := porting (onA (up .junior) fun k => { k with
       sweep := { k.sweep with read := .orphan }, capture := { k.capture with queue := [.placeholder 3 0] } }) (.sweep .a)
     s.PlaceholderLaw ∧ s.SweepLaw ∧ (s.link .a).sweep.read = .orphan ∧
     (s.link .a).capture.queue = [] ++ .placeholder 3 0 :: []) ∧
    (let s := porting (onA (up .junior) fun k => { k with sweep := { k.sweep with read := .orphan } }) (.sweep .a)
     s.PlaceholderLaw ∧ s.SweepLaw ∧ ∀ e ∈ (s.link .a).capture.queue, e.isPlaceholder = false) ∧
    (let s := porting (up .junior) (.sweep .a)
     s.PlaceholderLaw ∧ s.SweepLaw ∧ (s.link .a).sweep.read = .none) :=
  ⟨⟨by decide, by decide, State.placeholderLaw_of_check (by decide), State.sweepLaw_of_check (by decide), by decide,
      by decide, by decide, by decide⟩,
    ⟨State.placeholderLaw_of_check (by decide), State.sweepLaw_of_check (by decide), by decide, by decide⟩,
    ⟨State.placeholderLaw_of_check (by decide), State.sweepLaw_of_check (by decide), by decide⟩,
    ⟨State.placeholderLaw_of_check (by decide), State.sweepLaw_of_check (by decide), by decide⟩⟩

theorem witness_ControlRecordActs (r : Record) (h : r = .sweepOpen 3 ∨ r = .sweepClose 3 ∨ r = .stale 3 ∨ r = .stale 9 ∨ r = w1 3 0) :
    let s := queued (up .junior) [r]
    (board.link .a).apply.queue = [] ∧ s.inReset = false ∧ (s.link .a).apply.queue = [⟨r, some 0, false⟩] ∧ s.TableLaw ∧ s.window 1 = some importWindow ∧
      importWindow.importSide ≠ some .filling ∧ importWindow.importSide ≠ some .stale ∧
      (∀ i, ∀ w ∈ s.window i, w.link = .a → w.importSide.isSome = true → w.tag ≠ 9) ∧
      (importWindow.withImport .filling).importSide = some .filling ∧
      (importWindow.withImport .stale).importSide = some .stale := by
  rcases h with rfl | rfl | rfl | rfl | rfl <;>
    exact ⟨by decide, by decide, by decide, State.tableLaw_of_check (by decide), by decide, by decide, by decide, by decide,
      by decide, by decide⟩

/-! ## Frames and the transmitter -/

/-- No effective class; sixteen records and no notice are due; at senior rank and distance 24 no build may be made. -/
theorem witness_FrameBuilt : (board.link .a).control.effectiveClass = none ∧ board.linkState .a ≠ .up ∧
    (let s := captured (up .junior) 16
     s.inReset = false ∧ (s.link .a).control.effectiveClass = some .sixteen ∧ s.MayBuild .a .sixteen ∧
     (∀ i, i ∈ ([] : List Index) ↔ ∃ w ∈ s.window i, w.link = .a ∧ w.notice = true) ∧
     (s.link .a).capture.queue = (List.replicate 16 (Record.sweepOpen 3)).map CaptureEntry.record ++ []) ∧
    ¬ (onA (captured (up .senior) 16) fun k => { k with tx := { k.tx with nextSend := 24 } }).MayBuild .a .sixteen := by
  refine ⟨by decide, by decide, ⟨by decide, by decide, ?_, ?_, by decide⟩, fun h => absurd (h.notStalled (by decide)) (by decide)⟩
  · exact ⟨by decide, by decide, by decide, by decide, .inr ⟨.sweepOpen 3, _, rfl⟩, .inl (by decide)⟩
  · intro i
    have h : (captured (up .junior) 16).allWindows (fun _ w => decide (w.notice = false)) = true := by decide
    constructor
    · intro hi
      cases hi
    · rintro ⟨w, hw, _, hn⟩
      have := (State.allWindows_iff _ _).1 h i w hw
      simp [hn] at this

theorem witness_FlushTimerSetsFlushDue : (timed (up .junior)).inReset = false ∧
    ((timed (up .junior)).link .a).capture.flushTimer = .running 0 ∧ (board.link .a).capture.flushTimer = .stopped := by decide

theorem hears_up (s : State) (h : s.inReset = false ∧ (s.link .a).config.mode = .normal ∧ s.linkState .a = .up ∧
    (s.link .a).rx.alignment = .aligned) : s.Hears .a := ⟨h.1, h.2.1, .inl h.2.2.1, h.2.2.2⟩

/-- The ack timer run out at retry counts 5 and 6 of limit 6; a NAK that names the head after its ack, and one that
covers the whole list; the ack timer with time left. -/
theorem witness_GoBackResends :
    (let s := onA (listed (up .junior) [frame 4 true, frame 5 true] 4) fun k => { k with
       tx := { k.tx with ackTimer := .running 0 } }
     s.SweepLaw ∧ s.inReset = false ∧ s.linkState .a = .up ∧ (s.link .a).tx.ackTimer = .running 0 ∧
     (s.link .a).tx.retryCount + 1 ≤ (s.link .a).config.retryLimit ∧ s.Hears .a ∧
     (s.link .a).AckSplits 5 [frame 4 true] [frame 5 true] ∧ (frame 5 true).seq = 5 ∧
     (s.link .a).AckSplits 6 [frame 4 true, frame 5 true] []) ∧
    (let s := onA (listed (up .junior) [frame 4 true] 4) fun k => { k with tx := { k.tx with retryCount := 6 } }
     (s.link .a).config.retryLimit < (s.link .a).tx.retryCount + 1) ∧
    ((listed (up .junior) [frame 4 true] 4).link .a).tx.ackTimer ≠ .running 0 := by
  refine ⟨⟨State.sweepLaw_of_check (by decide), by decide, by decide, by decide, by decide, hears_up _ (by decide), ?_,
    by decide, ?_⟩, by decide, by decide⟩
  · constructor <;> decide
  · constructor <;> decide

/-- A symbol on the line in HUNTING and in UP, a NAK requested, an unsent frame ready, none, a frame ending, rest. -/
theorem witness_NextSymbolChosen :
    (let s := inState (up .junior) .hunting
     s.inReset = false ∧ (s.link .a).config.mode = .normal ∧ (s.link .a).tx.output = .symbol (idleSymbol 0 0 false) ∧
     (s.link .a).control.state = .hunting) ∧
    ((onA (up .junior) fun k => { k with tx := { k.tx with nakRequest := true } }).link .a).tx.nakRequest = true ∧
    (let s := listed (up .junior) [frame 4 true, frame 5 false] 4
     (s.link .a).control.state = .up ∧ (s.link .a).tx.nakRequest = false ∧
     (s.link .a).tx.retransmit = [frame 4 true] ++ frame 5 false :: [] ∧ (s.link .a).tx.peerHold = false ∧
     (s.link .a).tx.idleSent = true) ∧
    (∀ f ∈ ((up .junior).link .a).tx.retransmit, f.sent = true) ∧
    ((onA (listed (up .junior) [frame 4 true] 4) fun k => { k with tx := { k.tx with output := .frame (frame 4 true) } }).link
      .a).tx.output = .frame (frame 4 true) ∧ (board.link .a).tx.output = .rest := by decide

/-- Link A in LOOP mode with frame 4 in transmission and this many records queued. -/
def looping (n : Nat) : State :=
  onA (queued (looped (up .self)) (List.replicate n (w1 3 0))) fun k => { k with
    tx := { k.tx with
      retransmit := [frame 4 true, frame 5 false], oldest := 4, nextSend := 6, output := .frame (frame 4 true) }
    rx := { k.rx with receiveExpected := 4, alignment := .hunt, silenceTimer := .stopped } }

theorem witness_LoopFrameDelivered (n : Nat) (h : n = 31 ∨ n = 32) :
    (looping n).inReset = false ∧ ((looping n).link .a).config.mode = .loop ∧ (looping n).linkState .a = .up ∧
    ((looping n).link .a).control.rank = .self ∧ ((looping n).link .a).tx.output = .frame (frame 4 true) ∧
    ((looping n).link .a).tx.retransmit = frame 4 true :: [frame 5 false] ∧
    ((looping n).link .a).rx.receiveExpected = (frame 4 true).seq ∧ (looping n).SequenceLaw ∧ (looping n).AckTimerLaw ∧
    ((looping n).link .a).WithinCapacity ∧ ((looping n).link .a).apply.queue.length = n := by
  rcases h with rfl | rfl <;>
    exact ⟨by decide, by decide, by decide, by decide, by decide, by decide, by decide,
      State.sequenceLaw_of_check (by decide), State.ackTimerLaw_of_check (by decide),
      Link.withinCapacity_of_check (by decide), by decide⟩

/-! ## The receiver -/

theorem witness_SymbolsReadBack : 1 ≤ 1 ∧ (16 : Nat) ≤ 16 := by decide

/-- Link A HUNTING at hunt run 1 and 2, an IDLE, a NAK and a malformed symbol. -/
theorem witness_HuntAligns (n : Nat) (h : n = 1 ∨ n = 2) :
    let s := onA (inState board .hunting) fun k => { k with rx := { k.rx with huntRun := n, silenceTimer := .running 0 } }
    s.inReset = false ∧ (s.link .a).examines = true ∧ (s.link .a).rx.alignment = .hunt ∧ (s.link .a).rx.huntRun = n ∧
      (decodeSymbol 0x81498).aligns = true ∧ (decodeSymbol 0xB4500).aligns = false ∧ decodeSymbol 0xB4500 ≠ .malformed ∧
      decodeSymbol 0xB0000 = .malformed ∧ (s.link .a).rx.silenceTimer = .running 0 := by
  rcases h with rfl | rfl <;> decide

/-- Link A TRAINING or UP, ALIGNED, at malformed run 2 and 3, the silence limit run out or not. -/
theorem witness_LineLossByNoiseOrSilence (x : LinkState) (n : Nat) (t : Timer) (hx : x = .training ∨ x = .up)
    (h : n = 2 ∨ n = 3) (ht : t = .running 0 ∨ t = .running 1) :
    let s := onA (inState (up .junior) x) fun k => { k with rx := { k.rx with malformedRun := n, silenceTimer := t } }
    s.inReset = false ∧ s.ReceiverLaw ∧ s.SweepLaw ∧ (s.link .a).rx.alignment = .aligned ∧ s.linkState .a = x ∧
      decodeSymbol 0xB0000 = .malformed ∧ (s.link .a).rx.malformedRun = n ∧ (s.link .a).rx.silenceTimer = t := by
  rcases hx with rfl | rfl <;> rcases h with rfl | rfl <;> rcases ht with rfl | rfl <;>
    exact ⟨by decide, State.receiverLaw_of_check (by decide), State.sweepLaw_of_check (by decide), by decide, by decide,
      by decide, by decide, by decide⟩

/-- Link A TRAINING with and without its peer; ids 0, 255 and 7 clash on node 7, and 254 does not; a NAK is ignored. -/
theorem witness_TrainingBringsLinkUp (p : Option Peer) (h : p = none ∨ p = some { id := 12, acceptance := .eight }) :
    let s := onA (inState (up .unknown) .training) fun k => { k with control := { k.control with peer := p } }
    s.inReset = false ∧ (s.link .a).config.mode = .normal ∧ s.linkState .a = .training ∧
      (s.link .a).rx.alignment = .aligned ∧ s.AckTimerLaw ∧ s.SweepLaw ∧ (s.link .a).control.peer = p ∧
      s.config.nodeId = 7 ∧ (254 : Byte) ≠ 0 ∧ (254 : Byte) ≠ 255 ∧ (254 : Byte) ≠ s.config.nodeId ∧
      decodeSymbol 0xB4500 = .nak 5 := by
  rcases h with rfl | rfl <;>
    exact ⟨by decide, by decide, by decide, by decide, State.ackTimerLaw_of_check (by decide),
      State.sweepLaw_of_check (by decide), by decide, by decide, by decide, by decide, by decide, by decide⟩

/-- Two sent frames, the ack covering none, one and both. -/
theorem witness_IdleAndHelloInUp :
    let s := listed (up .junior) [frame 63 true, frame 0 true] 63
    s.Hears .a ∧ s.AckTimerLaw ∧ s.SweepLaw ∧ (s.link .a).AckSplits 63 [] [frame 63 true, frame 0 true] ∧
      (s.link .a).AckSplits 0 [frame 63 true] [frame 0 true] ∧ (s.link .a).AckSplits 1 [frame 63 true, frame 0 true] [] := by
  refine ⟨hears_up _ (by decide), State.ackTimerLaw_of_check (by decide), State.sweepLaw_of_check (by decide), ?_, ?_, ?_⟩
  all_goals constructor <;> decide

/-- A frame of sixteen items, expected with room for just it, expected with one slot less, duplicate at distance 32, gap at
distance 31. -/
theorem witness_WholeFrameReceived (n : Nat) (h : n = 16 ∨ n = 17) :
    let s := queued (up .junior) (List.replicate n (.sweepOpen 9))
    let f (q : Seq) : Frame :=
      { seq := q, seen := 0, items := List.replicate 16 (.stale 9), check := frameCheck q 0 (List.replicate 16 (.stale 9)),
        sent := true }
    s.Hears .a ∧ s.finish = s ∧ (s.link .a).WithinCapacity ∧ (f 0).items.length = 16 ∧
      16 ≤ (s.link .a).config.frameClass.items ∧ (∀ t o m d, Record.write t o m d ∈ (f 0).items → m ≠ 0) ∧
      (s.link .a).rx.receiveExpected = 0 ∧ (s.link .a).apply.queue.length = n ∧ before (f 32).seq 0 = true ∧
      before (f 31).seq 0 = false := by
  rcases h with rfl | rfl <;>
    exact ⟨hears_up _ (by decide), by decide, Link.withinCapacity_of_check (by decide), by decide, by decide,
      fun t o m d h => (by simp at h), by decide, by decide, by decide, by decide⟩

/-- Link A with frame 3 of two records under assembly, `n` of them read. -/
def assembling (n : Nat) : Assembly :=
  { seq := 3, seen := 0, count := 2, records := List.replicate n (.stale 9), part := none, check := 0x1234 }

/-- Receivers that do not examine the line; announced class 8 at counts 8 and 9, and class 16 at 16; no frame under assembly;
a WRITE with lane mask 0, a SWEEP_OPEN with an offset bit, and a wrong check. -/
theorem witness_DamagedFramesDiscarded :
    ((looped (up .self)).link .a).config.mode = .loop ∧ board.linkState .a = .disabled ∧
    (inState board .fault).linkState .a = .fault ∧
    (let s := onA (up .junior) fun k => { k with config := { k.config with frameClass := .eight } }
     s.Hears .a ∧ (s.link .a).config.frameClass = .eight ∧ (8 : Nat) ≤ 8 ∧ (8 : Nat) < 9 ∧ (9 : Nat) ≤ 16) ∧
    ((up .junior).link .a).config.frameClass = .sixteen ∧
    (up .junior).Hears .a ∧ ((up .junior).link .a).rx.assembly = none ∧
    (∀ n, n ≤ 2 → let s := onA (up .junior) fun k => { k with rx := { k.rx with assembly := some (assembling n) } }
      s.Hears .a ∧ (s.link .a).rx.assembly = some (assembling n) ∧ (assembling n).part = none ∧
        (assembling n).records.length = n) ∧
    (0x0300 : Payload).extractLsb' 14 2 = 0#2 ∧ (0x0300 : Payload).extractLsb' 4 4 = 0#4 ∧
    (0x4301 : Payload).extractLsb' 14 2 ≠ 0#2 ∧ (0x4301 : Payload).extractLsb' 0 8 ≠ 0#8 ∧
    (assembling 2).count ≤ (assembling 2).records.length ∧ (0x1235 : Payload) ≠ (assembling 2).check :=
  ⟨by decide, by decide, by decide, ⟨hears_up _ (by decide), by decide⟩, by decide, hears_up _ (by decide), by decide,
    fun _ _ => ⟨hears_up _ ⟨rfl, rfl, rfl, rfl⟩, rfl, rfl, List.length_replicate⟩, by decide, by decide, by decide, by decide,
    by decide, by decide⟩

/-! ## Laws that every step keeps -/

/-- A busy board that has every law: link A UP at SENIOR rank with a sent frame, a queued record, a pending entry, a sweep
read outstanding with its placeholder, an access in WAIT_DRAIN on its drain point; a memory completion waits. -/
def busy : State :=
  { onA (sweeping (up .senior) .reading 5) (fun k => { k with
      sweep := { k.sweep with read := .current }
      capture := { queue := [.record (w1 3 0), .placeholder 3 5], flushTimer := .running 7, flushDue := false }
      tx := { k.tx with retransmit := [frame 4 true], oldest := 4, nextSend := 5, ackTimer := .running 9 }
      apply := { k.apply with queue := [⟨w1 3 0, some 4, true⟩] }
      conflict := { table := [{ tag := 5, offset := 63, frame := some 4 }], horizon := 4 } }) with
    pending := [.memoryCompletion (.ok 1)]
    port := some { owner := .sweep .a, kind := .read, addr := 0x40005, mask := 15 }
    host := { HostPort.reset with
      phase := .waitDrain, access := some ⟨.read, 0x40400, 15⟩, classification := some (.window 1 0), handling := some .plain } }

theorem busy_steps : ∃ t, step busy = .next t := ⟨_, rfl⟩

theorem witness_StepKeepsCapacities : busy.WithinCapacity ∧ busy.ConfigLaw ∧ busy.HoldLaw ∧ ∃ t, step busy = .next t :=
  ⟨State.withinCapacity_of_check (by decide),
    ⟨by constructor <;> decide, by constructor <;> decide, by constructor <;> decide⟩,
    ⟨by constructor <;> decide, by constructor <;> decide⟩, busy_steps⟩

theorem witness_StepKeepsIntnExact : busy.IntnExact ∧ ∃ t, step busy = .next t := ⟨by unfold State.IntnExact; decide, busy_steps⟩

theorem witness_StepKeepsSequenceLaws : busy.SequenceLaw ∧ busy.AckTimerLaw ∧ busy.ReceiverLaw ∧ ∃ t, step busy = .next t :=
  ⟨State.sequenceLaw_of_check (by decide), State.ackTimerLaw_of_check (by decide), State.receiverLaw_of_check (by decide),
    busy_steps⟩

theorem witness_StepKeepsTableLaw : busy.TableLaw ∧ ∃ t, step busy = .next t :=
  ⟨State.tableLaw_of_check (by decide), busy_steps⟩

theorem witness_StepKeepsSweepLaws : busy.TableLaw ∧ busy.SweepLaw ∧ busy.PlaceholderLaw ∧ ∃ t, step busy = .next t :=
  ⟨State.tableLaw_of_check (by decide), State.sweepLaw_of_check (by decide), State.placeholderLaw_of_check (by decide),
    busy_steps⟩

theorem witness_StepKeepsConflictLaws : busy.TableLaw ∧ busy.SweepLaw ∧ busy.ConflictLaw ∧ busy.WordLaw ∧
    ∃ t, step busy = .next t :=
  ⟨State.tableLaw_of_check (by decide), State.sweepLaw_of_check (by decide), State.conflictLaw_of_check (by decide),
    State.wordLaw_of_check (by decide), busy_steps⟩

theorem witness_StepKeepsHostLaw : busy.HostLaw ∧ ∃ t, step busy = .next t := ⟨State.hostLaw_of_check (by decide), busy_steps⟩

end Sys2Proof.Tests
end

section
/-! SUPPORT. What leaves the window table as it is: one lemma for each operation that changes no entry. -/

namespace Sys2Proof.Machine

/-! ## Operations that change no window entry -/

@[simp] theorem State.setFlushDue_windows (s : State) (l : LinkId) : (s.setFlushDue l).windows = s.windows :=
  State.modLink_windows _ _ _

@[simp] theorem State.noteCapture_windows (s : State) (l : LinkId) (w : Window) (o : Offset) :
    (s.noteCapture l w o).windows = s.windows := State.modLink_windows _ _ _

@[simp] theorem State.captureWrite_windows (s : State) (w : Window) (o : Offset) (m : LaneMask) (d : Word) :
    (s.captureWrite w o m d).windows = s.windows := by simp [State.captureWrite]

@[simp] theorem State.capturePlaceholder_windows (s : State) (l : LinkId) (w : Window) (o : Offset) :
    (s.capturePlaceholder l w o).windows = s.windows := by simp [State.capturePlaceholder]

@[simp] theorem State.removePlaceholder_windows (s : State) (l : LinkId) :
    (s.removePlaceholder l).windows = s.windows := State.modLink_windows _ _ _

@[simp] theorem State.sweepReadOk_windows (s : State) (l : LinkId) (sw : ActiveSweep) (w : Window) (d : Word) :
    (s.sweepReadOk l sw w d).windows = s.windows := by simp [State.sweepReadOk, State.fillRead]

@[simp] theorem State.offerHorizon_windows (s : State) (l : LinkId) (v : Seq) :
    (s.offerHorizon l v).windows = s.windows := State.modLink_windows _ _ _

@[simp] theorem State.offerHead_windows (s : State) (l : LinkId) : (s.offerHead l).windows = s.windows := by
  unfold State.offerHead
  split <;> simp

@[simp] theorem State.offerIdle_windows (s : State) (l : LinkId) (ack next : Seq) :
    (s.offerIdle l ack next).windows = s.windows := by
  unfold State.offerIdle
  dsimp only
  split <;> simp

@[simp] theorem State.offerFrame_windows (s : State) (l : LinkId) (seen : Seq) (items : List Record) :
    (s.offerFrame l seen items).windows = s.windows := by
  unfold State.offerFrame
  dsimp only
  split
  · split <;> simp
  · rfl

@[simp] theorem State.classifyFrame_windows (s : State) (l : LinkId) (seq seen : Seq) (items : List Record) :
    (s.classifyFrame l seq seen items).windows = s.windows := by
  unfold State.classifyFrame
  split <;> simp

@[simp] theorem State.receiveData_windows (s : State) (l : LinkId) (p : Payload) :
    (s.receiveData l p).windows = s.windows := by
  unfold State.receiveData
  split
  · rfl
  · split <;> simp

@[simp] theorem State.receiveIdle_windows (s : State) (l : LinkId) (ack : Seq) (hold : Bool) :
    (s.receiveIdle l ack hold).windows = s.windows := State.modLink_windows _ _ _

@[simp] theorem State.loopDeliver_windows (s : State) (l : LinkId) (f : Frame) :
    (s.loopDeliver l f).windows = s.windows := by
  unfold State.loopDeliver
  dsimp only
  split <;> simp

@[simp] theorem State.endFrame_windows (s : State) (l : LinkId) : (s.endFrame l).windows = s.windows := by
  unfold State.endFrame
  split
  · split <;> simp
  · rfl
  · rfl

@[simp] theorem State.enterUp_windows (s : State) (l : LinkId) (p : Peer) (hold : Bool) :
    (s.enterUp l p hold).windows = s.windows := by simp [State.enterUp]

@[simp] theorem State.enterUpLoop_windows (s : State) (l : LinkId) : (s.enterUpLoop l).windows = s.windows := by
  simp [State.enterUpLoop]

@[simp] theorem State.enterHunting_windows (s : State) (l : LinkId) : (s.enterHunting l).windows = s.windows := by
  simp [State.enterHunting]

@[simp] theorem State.waitDrain_windows (s : State) (w : Window) (o : Offset) :
    (s.waitDrain w o).windows = s.windows := by simp [State.waitDrain]

@[simp] theorem State.roomTest_windows (s : State) : s.roomTest.windows = s.windows := by rw [State.roomTest_eq]

@[simp] theorem State.dropDrainPoint_windows (s : State) : s.dropDrainPoint.windows = s.windows := by
  simp [State.dropDrainPoint]

@[simp] theorem State.forgetWindow_windows (s : State) (i : Index) : (s.forgetWindow i).windows = s.windows := by
  unfold State.forgetWindow
  split
  · split
    · split <;> simp
    · rfl
  · rfl

@[simp] theorem State.softResetHost_windows (s : State) : s.softResetHost.windows = s.windows := by
  unfold State.softResetHost
  repeat' split
  all_goals rfl

@[simp] theorem State.countHostGrant_windows (s : State) : s.countHostGrant.windows = s.windows := by
  simp [State.countHostGrant]

@[simp] theorem State.grantHost_windows (s : State) : s.grantHost.windows = s.windows := by
  unfold State.grantHost
  split
  · rfl
  · dsimp only
    split <;> simp

@[simp] theorem State.grantSweep_windows (s : State) (l : LinkId) : (s.grantSweep l).windows = s.windows := by
  unfold State.grantSweep
  split <;> simp

@[simp] theorem State.grantApply_windows (s : State) (l : LinkId) (i : Index) (addr : WordAddr) (m : LaneMask)
    (d : Word) : (s.grantApply l i addr m d).windows = s.windows := by simp [State.grantApply]

@[simp] theorem State.queueOpen_windows (s : State) (l : LinkId) : (s.queueOpen l).windows = s.windows := by
  unfold State.queueOpen
  split <;> simp

@[simp] theorem State.holdBecomesCapturing_windows (s : State) (i : Index) :
    (s.holdBecomesCapturing i).windows = s.windows := by
  unfold State.holdBecomesCapturing
  dsimp only
  split <;> rfl

@[simp] theorem State.partConfigSet_windows (s : State) (f : PartConfigFields) :
    (s.partConfigSet f).windows = s.windows := by
  unfold State.partConfigSet State.refuse State.respondOk
  split
  · simp
  · split <;> simp

@[simp] theorem State.eventPop_windows (s : State) : s.eventPop.windows = s.windows := by
  unfold State.eventPop
  split <;> simp

@[simp] theorem State.badCommand_windows (s : State) (code : Byte) : (s.badCommand code).windows = s.windows := by
  unfold State.badCommand State.refuse
  split <;> simp

@[simp] theorem State.linkSet_windows (s : State) (link : Byte) (f : LinkFields) :
    (s.linkSet link f).windows = s.windows := by
  unfold State.linkSet State.refuse State.respondOk
  repeat' split
  all_goals simp

@[simp] theorem State.linkGet_windows (s : State) (link : Byte) : (s.linkGet link).windows = s.windows := by
  unfold State.linkGet State.refuse
  split <;> simp

@[simp] theorem State.windowGet_windows (s : State) (index : Byte) : (s.windowGet index).windows = s.windows := by
  unfold State.windowGet State.refuse
  split <;> simp

@[simp] theorem State.flush_windows (s : State) (link : Byte) : (s.flush link).windows = s.windows := by
  unfold State.flush State.refuse State.respondOk
  repeat' split
  all_goals simp

end Sys2Proof.Machine
end

section
/-! SUPPORT. The table law (R2 to R5) as a law of pairs of entries, and each operation that changes an entry keeps it. -/

namespace Sys2Proof.Machine

/-! ## The law of two entries -/

/-- Two valid entries may stand together: their regions are disjoint, and on one link they share no tag for a side that
both have (R4, R5). -/
structure Window.Apart (v w : Window) : Prop where
  disjoint : v.overlaps w = false
  exportTags : v.link = w.link → v.tag = w.tag → (v.direction.hasExport && w.direction.hasExport) = false
  importTags : v.link = w.link → v.tag = w.tag → (v.direction.hasImport && w.direction.hasImport) = false

theorem Window.overlaps_comm (v w : Window) : v.overlaps w = w.overlaps v := Bool.and_comm _ _

theorem Window.Apart.symm {v w : Window} (h : v.Apart w) : w.Apart v :=
  ⟨by rw [Window.overlaps_comm, h.disjoint],
    fun hl ht => by rw [Bool.and_comm, h.exportTags hl.symm ht.symm],
    fun hl ht => by rw [Bool.and_comm, h.importTags hl.symm ht.symm]⟩

theorem State.tableLaw_iff (s : State) : s.TableLaw ↔
    (∀ i, ∀ w ∈ s.window i, w.Legal) ∧ ∀ i j, i ≠ j → ∀ v ∈ s.window i, ∀ w ∈ s.window j, v.Apart w := by
  constructor
  · intro h
    exact ⟨h.legal, fun i j hij v hv w hw =>
      ⟨h.disjoint i j hij v hv w hw, h.exportTags i j hij v hv w hw, h.importTags i j hij v hv w hw⟩⟩
  · rintro ⟨legal, apart⟩
    exact ⟨legal, fun i j hij v hv w hw => (apart i j hij v hv w hw).disjoint,
      fun i j hij v hv w hw => (apart i j hij v hv w hw).exportTags,
      fun i j hij v hv w hw => (apart i j hij v hv w hw).importTags⟩

/-! ## Entries that keep their description -/

/-- The entry `w` has the description of `v`: only the states of its sides may differ, and the notice of a window that
exports. -/
structure Window.Redescribes (w v : Window) : Prop where
  base : w.base = v.base
  k : w.k = v.k
  link : w.link = v.link
  direction : w.direction = v.direction
  tag : w.tag = v.tag
  policy : w.policy = v.policy
  coalesce : w.coalesce = v.coalesce
  exportSide : w.exportSide.isSome = v.exportSide.isSome
  importSide : w.importSide.isSome = v.importSide.isSome
  notice : w.notice = true → v.notice = true ∨ v.exportSide.isSome = true

theorem Window.Redescribes.size {w v : Window} (h : w.Redescribes v) : w.size = v.size := by
  simp [Window.size, h.k]

theorem Window.Redescribes.legal {w v : Window} (h : w.Redescribes v) (hv : v.Legal) : w.Legal where
  base := by rw [h.base]; exact hv.base
  size := by rw [h.k]; exact hv.size
  region := by rw [h.base, h.size]; exact hv.region
  exportSide := by rw [h.exportSide, h.direction]; exact hv.exportSide
  importSide := by rw [h.importSide, h.direction]; exact hv.importSide
  coalesce := by rw [h.coalesce, h.direction]; exact hv.coalesce
  policy := by rw [h.policy, h.direction]; exact hv.policy
  notice hn := by
    rw [h.direction]
    rcases h.notice hn with hn | he
    · exact hv.notice hn
    · rw [← hv.exportSide, he]

theorem Window.Redescribes.apart {w w' v v' : Window} (h : w.Redescribes v) (h' : w'.Redescribes v')
    (hv : v.Apart v') : w.Apart w' where
  disjoint := by
    have := hv.disjoint
    rwa [Window.overlaps, ← h.base, ← h'.base, ← h.size, ← h'.size] at this
  exportTags := by
    rw [h.link, h'.link, h.tag, h'.tag, h.direction, h'.direction]
    exact hv.exportTags
  importTags := by
    rw [h.link, h'.link, h.tag, h'.tag, h.direction, h'.direction]
    exact hv.importTags

theorem Window.redescribes_refl (w : Window) : w.Redescribes w :=
  ⟨rfl, rfl, rfl, rfl, rfl, rfl, rfl, rfl, rfl, .inl⟩

theorem Window.withExport_redescribes (w : Window) (e : ExportState) : (w.withExport e).Redescribes w :=
  ⟨rfl, rfl, rfl, rfl, rfl, rfl, rfl, by simp [Window.withExport], rfl, .inl⟩

theorem Window.withImport_redescribes (w : Window) (m : ImportState) : (w.withImport m).Redescribes w :=
  ⟨rfl, rfl, rfl, rfl, rfl, rfl, rfl, rfl, by simp [Window.withImport], .inl⟩

theorem Window.allStale_redescribes (w : Window) : w.allStale.Redescribes w :=
  ⟨rfl, rfl, rfl, rfl, rfl, rfl, rfl, by simp [Window.allStale], by simp [Window.allStale], nofun⟩

theorem Window.linkDown_redescribes (l : LinkId) (w : Window) : (w.linkDown l).Redescribes w := by
  unfold Window.linkDown
  split
  · exact w.allStale_redescribes
  · exact w.redescribes_refl

theorem Window.clearNotice_redescribes (w : Window) : ({ w with notice := false } : Window).Redescribes w :=
  ⟨rfl, rfl, rfl, rfl, rfl, rfl, rfl, rfl, rfl, nofun⟩

theorem Window.owe_redescribes {w : Window} (h : w.exportSide.isSome = true) :
    ({ w with notice := true } : Window).Redescribes w :=
  ⟨rfl, rfl, rfl, rfl, rfl, rfl, rfl, rfl, rfl, fun _ => .inr h⟩

/-! ## Changes of the table that keep its law -/

namespace State.TableLaw

variable {s t : State} (hs : s.TableLaw)
include hs

/-- A table whose entries keep the descriptions of a lawful table, or are OFF, is lawful. -/
theorem of_redescribes (h : ∀ i, ∀ w ∈ t.window i, ∃ v ∈ s.window i, w.Redescribes v) : t.TableLaw := by
  rw [State.tableLaw_iff] at hs ⊢
  obtain ⟨legal, apart⟩ := hs
  constructor
  · intro i w hw
    obtain ⟨v, hv, hwv⟩ := h i w hw
    exact hwv.legal (legal i v hv)
  · intro i j hij w hw w' hw'
    obtain ⟨v, hv, hwv⟩ := h i w hw
    obtain ⟨v', hv', hwv'⟩ := h j w' hw'
    exact hwv.apart hwv' (apart i j hij v hv v' hv')

/-- The law speaks of the table alone. -/
theorem congr (h : t.windows = s.windows) : t.TableLaw :=
  hs.of_redescribes fun i w hw => ⟨w, by rwa [State.window, ← h], w.redescribes_refl⟩

theorem clearEntry (i : Index) : (s.setWindow i none).TableLaw :=
  hs.of_redescribes fun j w hw => by
    by_cases hji : j = i
    · subst hji
      simp at hw
    · rw [State.setWindow_window_ne _ hji] at hw
      exact ⟨w, hw, w.redescribes_refl⟩

theorem modWindow {i : Index} {f : Window → Window} (hf : ∀ w ∈ s.window i, (f w).Redescribes w) :
    (s.modWindow i f).TableLaw :=
  hs.of_redescribes fun j w hw => by
    by_cases hji : j = i
    · subst hji
      rw [State.modWindow_window, Option.mem_def, Option.map_eq_some_iff] at hw
      obtain ⟨v, hv, rfl⟩ := hw
      exact ⟨v, hv, hf v hv⟩
    · rw [State.modWindow_window_ne _ hji] at hw
      exact ⟨w, hw, w.redescribes_refl⟩

theorem modWindows {f : Window → Window} (hf : ∀ w, (f w).Redescribes w) : (s.modWindows f).TableLaw :=
  hs.of_redescribes fun i w hw => by
    rw [State.modWindows_window, Option.mem_def, Option.map_eq_some_iff] at hw
    obtain ⟨v, hv, rfl⟩ := hw
    exact ⟨v, hv, hf v⟩

/-- A legal entry that may stand beside every other one enters the table. -/
theorem setEntry {i : Index} {w : Window} (hw : w.Legal) (ha : ∀ j, ∀ v ∈ s.window j, v.Apart w) :
    (s.setWindow i (some w)).TableLaw := by
  rw [State.tableLaw_iff] at hs ⊢
  obtain ⟨legal, apart⟩ := hs
  have entry : ∀ j, ∀ v ∈ (s.setWindow i (some w)).window j, (j = i ∧ v = w) ∨ (j ≠ i ∧ v ∈ s.window j) := by
    intro j v hv
    by_cases hji : j = i
    · subst hji
      exact .inl ⟨rfl, by simpa using hv.symm⟩
    · rw [State.setWindow_window_ne _ hji] at hv
      exact .inr ⟨hji, hv⟩
  constructor
  · intro j v hv
    rcases entry j v hv with ⟨-, rfl⟩ | ⟨-, hv⟩
    · exact hw
    · exact legal j v hv
  · intro j j' hjj v hv v' hv'
    rcases entry j v hv with ⟨hj, rfl⟩ | ⟨-, hold⟩ <;> rcases entry j' v' hv' with ⟨hj', rfl⟩ | ⟨-, hold'⟩
    · exact absurd (hj.trans hj'.symm) hjj
    · exact (ha j' v' hold').symm
    · exact ha j v hold
    · exact apart j j' hjj v hold v' hold'

/-! ## Notices, sides and sweeps -/

theorem setNotice (i : Index) : (s.setNotice i).TableLaw := by
  unfold State.setNotice
  split
  case h_1 w hw =>
    split
    next h =>
      simp only [Bool.and_eq_true] at h
      refine (hs.modWindow fun v hv => Window.owe_redescribes ?_).congr (State.setFlushDue_windows _ _)
      obtain rfl : w = v := by simpa [hw] using hv
      exact h.1
    next => exact hs
  case h_2 => exact hs

theorem raise (e : Event) : (s.raise e).TableLaw := hs.congr (State.raise_windows _ _)

theorem modLink (l : LinkId) (f : Link → Link) : (s.modLink l f).TableLaw := hs.congr (State.modLink_windows _ _ _)

theorem withExport (i : Index) (e : ExportState) : (s.modWindow i (·.withExport e)).TableLaw :=
  hs.modWindow fun w _ => w.withExport_redescribes e

theorem withImport (i : Index) (m : ImportState) : (s.modWindow i (·.withImport m)).TableLaw :=
  hs.modWindow fun w _ => w.withImport_redescribes m

theorem abortSweep (l : LinkId) (c : Cause) : (s.abortSweep l c).TableLaw := by
  unfold State.abortSweep
  split
  · exact hs
  · dsimp only
    split
    · exact (hs.modLink _ _).raise _
    · split
      · exact (((hs.modLink _ _).withExport _ _).raise _).setNotice _
      · exact ((hs.modLink _ _).withExport _ _).raise _

theorem localStale (i : Index) (c : Cause) : (s.localStale i c).TableLaw := by
  unfold State.localStale
  split
  · exact hs
  · split
    · dsimp only
      split
      · exact ((hs.withExport _ _).raise _).setNotice _
      · exact (hs.withExport _ _).raise _
    · exact hs.abortSweep _ _
    · exact hs
    · exact hs

theorem importStale (i : Index) (c : Cause) : (s.importStale i c).TableLaw := by
  unfold State.importStale
  split
  · exact hs
  · split
    · exact (hs.withImport _ _).raise _
    · exact (hs.withImport _ _).raise _
    · exact hs
    · exact hs

theorem applyControl (l : LinkId) (r : Record) : (s.applyControl l r).TableLaw := by
  unfold State.applyControl
  split
  · exact hs
  · split
    · exact hs.withImport _ _
    · split
      · exact (hs.withImport _ _).raise _
      · exact hs
    · exact hs.importStale _ _
    · exact hs

theorem queueClose (l : LinkId) : (s.queueClose l).TableLaw := by
  unfold State.queueClose
  split
  · exact ((hs.modLink _ _).withExport _ _).raise _
  · exact hs

theorem startSweep (i : Index) (w : Window) : (s.startSweep i w).TableLaw :=
  (((hs.withExport i .sweeping).modLink _ _).congr (State.queueOpen_windows _ _)).congr
    (State.holdBecomesCapturing_windows _ _)

/-- The builder clears the notices that it places, and changes no other entry (R33). -/
theorem buildFrame (l : LinkId) (n : Nat) : (s.buildFrame l n).TableLaw := by
  have clear : ∀ (is : List Index) (s : State), s.TableLaw →
      (is.foldl (fun s i => s.modWindow i fun w => { w with notice := false }) s).TableLaw := by
    intro is
    induction is with
    | nil => exact fun _ h => h
    | cons i is ih => exact fun s h => ih _ (h.modWindow fun w _ => w.clearNotice_redescribes)
  unfold State.buildFrame
  dsimp only
  exact (clear _ _ hs).modLink _ _

theorem frameBuild (l : LinkId) : (s.frameBuild l).TableLaw := by
  unfold State.frameBuild
  split
  · split
    · exact hs.buildFrame _ _
    · exact hs
  · exact hs

/-! ## The host port -/

theorem claimHost (h : Handling) : (s.claimHost h).TableLaw := hs.congr rfl

theorem completeHost (fault : Bool) (data : Option Word) : (s.completeHost fault data).TableLaw := hs.congr rfl

theorem roomTest : s.roomTest.TableLaw := hs.congr (State.roomTest_windows s)

theorem exportWrite (i : Index) (w : Window) : (s.exportWrite i w).TableLaw := by
  unfold State.exportWrite
  have writable : (match s.linkState w.link with
      | .hunting | .training | .up => s.claimHost .capturing
      | .draining => (s.claimHost .plain).localStale i .linkDraining
      | .disabled | .fault => (s.claimHost .plain).localStale i .linkDown).TableLaw := by
    cases s.linkState w.link
    case draining => exact (hs.claimHost _).localStale _ _
    case disabled | fault => exact (hs.claimHost _).localStale _ _
    case hunting | training | up => exact hs.claimHost _
  rcases w.exportSide with _ | _ | _ | _
  · exact hs.claimHost _
  · exact writable
  · exact hs.claimHost _
  · exact writable

theorem proceedHost : s.proceedHost.TableLaw := by
  unfold State.proceedHost
  split
  · split
    · split
      · exact hs.completeHost _ _
      · exact hs.completeHost _ _
      · exact hs.claimHost _
      · exact hs.claimHost _
    · exact hs.claimHost _
    · exact hs.claimHost _
    · exact hs.exportWrite _ _
    · exact hs.exportWrite _ _
  · exact hs.claimHost _

theorem endDrain : s.endDrain.TableLaw := by
  unfold State.endDrain
  split
  · exact hs.proceedHost
  · exact hs

theorem arrive (acc : Access) : (s.arrive acc).TableLaw := by
  unfold State.arrive
  split
  · exact hs.completeHost _ _
  · split
    · exact hs.congr rfl
    · split
      · exact hs
      · dsimp only
        split
        · exact hs.congr (State.waitDrain_windows _ _ _)
        · exact State.TableLaw.proceedHost (hs.congr rfl)

theorem holdExpiry : s.holdExpiry.TableLaw := by
  unfold State.holdExpiry
  split
  · exact (hs.claimHost _).localStale _ _
  · exact hs.claimHost _

/-! ## The apply queue and the memory port -/

theorem popApply (l : LinkId) : (s.popApply l).TableLaw :=
  ((hs.modLink _ _).congr (State.offerHead_windows _ _)).endDrain

theorem purgeApply (l : LinkId) (t : Tag) : (s.purgeApply l t).TableLaw := by
  unfold State.purgeApply
  refine State.TableLaw.endDrain ?_
  split
  · exact (hs.modLink _ _).congr (State.offerHead_windows _ _)
  · exact hs.modLink _ _

theorem discardHead (l : LinkId) (t : Tag) (e : Option Cause) : (s.discardHead l t e).TableLaw := by
  unfold State.discardHead
  cases e with
  | none => exact hs.popApply _
  | some c => exact (hs.raise _).popApply _

theorem decideControl (l : LinkId) : (s.decideControl l).TableLaw := by
  unfold State.decideControl
  split
  · exact (hs.applyControl _ _).popApply _
  · exact hs

omit hs in
theorem arbitrate (fuel : Nat) : ∀ {s : State}, s.TableLaw → (s.arbitrate fuel).TableLaw := by
  induction fuel with
  | zero => exact fun hs => hs
  | succ fuel ih =>
    intro s hs
    unfold State.arbitrate
    split
    · exact hs
    · split
      · exact hs
      · exact hs.congr (State.grantHost_windows _)
      · exact hs.congr (State.grantSweep_windows _ _)
      · split
        · split
          · exact hs.congr (State.grantApply_windows _ _ _ _ _ _)
          · exact ih (hs.discardHead _ _ _).roomTest
        · exact hs

theorem arbiterChoice : s.arbiterChoice.TableLaw := hs.arbitrate _

theorem completeHostAccess (kind : AccessKind) (status : MemStatus) : (s.completeHostAccess kind status).TableLaw := by
  unfold State.completeHostAccess
  cases status with
  | ok d => exact hs.completeHost _ _
  | fault =>
    dsimp only
    split
    · exact (hs.completeHost _ _).localStale _ _
    · exact hs.completeHost _ _

theorem completeApply (l : LinkId) (status : MemStatus) : (s.completeApply l status).TableLaw := by
  unfold State.completeApply
  split
  · exact hs
  · exact hs.popApply _
  · cases status with
    | ok d => exact hs.popApply _
    | fault => exact (hs.popApply _).importStale _ _

theorem removePlaceholder (l : LinkId) : (s.removePlaceholder l).TableLaw :=
  hs.congr (State.removePlaceholder_windows _ _)

theorem completeSweep (l : LinkId) (status : MemStatus) : (s.completeSweep l status).TableLaw := by
  have ended := hs.modLink l fun k => { k with sweep := { k.sweep with read := .none } }
  unfold State.completeSweep
  dsimp only
  split
  · exact ended
  · exact ended.removePlaceholder _
  · exact ended.removePlaceholder _
  · split
    · exact ended.congr (State.sweepReadOk_windows _ _ _ _ _)
    · exact ended.removePlaceholder _
    · exact (ended.removePlaceholder _).abortSweep _ _

theorem completeOwner (p : PortTransaction) (status : MemStatus) : (s.completeOwner p status).TableLaw := by
  unfold State.completeOwner
  split
  · exact hs.completeHostAccess _ _
  · exact hs.completeApply _ _
  · exact hs.completeSweep _ _
  · exact hs

theorem complete (p : PortTransaction) (status : MemStatus) : (s.complete p status).TableLaw := by
  have freed : ({ s with port := none } : State).TableLaw := hs.congr rfl
  exact (freed.completeOwner p status).roomTest.arbiterChoice

/-! ## Links -/

theorem enterDown (l : LinkId) (r : Option FaultReason) : (s.enterDown l r).TableLaw := by
  have down := ((hs.modLink l (·.goDown r)).abortSweep l .linkLeftUp).modWindows (Window.linkDown_redescribes l)
  unfold State.enterDown
  cases r with
  | none => exact down.raise _
  | some r => exact down.raise _

theorem faultLink (l : LinkId) (r : FaultReason) : (s.faultLink l r).TableLaw := by
  unfold State.faultLink
  split
  · exact hs.enterDown _ _
  · exact hs

theorem enterDraining (l : LinkId) : (s.enterDraining l).TableLaw := (hs.modLink _ _).abortSweep _ _

theorem drainComplete (l : LinkId) : (s.drainComplete l).TableLaw := by
  unfold State.drainComplete
  dsimp only
  split
  · exact hs.enterDown _ _
  · exact hs

theorem finish : s.finish.TableLaw :=
  ((((hs.drainComplete _).drainComplete _).modLink _ _).modLink _ _).roomTest.congr rfl

theorem goBack (l : LinkId) : (s.goBack l).TableLaw := by
  unfold State.goBack
  dsimp only
  split
  · exact (hs.modLink _ _).faultLink _ _
  · exact hs.modLink _ _

theorem receiveNak (l : LinkId) (expected : Seq) : (s.receiveNak l expected).TableLaw := by
  unfold State.receiveNak
  dsimp only
  split
  · exact (hs.modLink _ _).goBack _
  · exact hs.modLink _ _

theorem disableLink (l : LinkId) (force : Bool) : (s.disableLink l force).TableLaw := by
  unfold State.disableLink
  split
  · exact hs
  · exact hs.enterDown _ _
  · exact hs.enterDown _ _
  · split
    · exact (hs.enterDraining _).enterDown _ _
    · exact hs.enterDraining _
  · split
    · exact hs.enterDown _ _
    · exact hs
  · exact hs.enterDown _ _

/-! ## The receiver -/

theorem lineLoss (l : LinkId) : (s.lineLoss l).TableLaw := by
  unfold State.lineLoss
  dsimp only
  split
  · exact (hs.modLink _ _).modLink _ _
  · exact (hs.modLink _ _).faultLink _ _
  · exact (hs.modLink _ _).faultLink _ _
  all_goals exact hs.modLink _ _

theorem symbolInTraining (l : LinkId) (sym : SymbolKind) : (s.symbolInTraining l sym).TableLaw := by
  unfold State.symbolInTraining
  split
  · unfold State.helloInTraining
    split
    · exact hs.faultLink _ _
    · dsimp only
      split
      · exact (hs.modLink _ _).congr (State.enterUp_windows _ _ _ _)
      · exact hs.modLink _ _
  · unfold State.idleInTraining
    split
    · exact hs.congr (State.enterUp_windows _ _ _ _)
    · exact hs
  all_goals exact hs

theorem symbolInUp (l : LinkId) (p : Payload) (sym : SymbolKind) : (s.symbolInUp l p sym).TableLaw := by
  have damaged := hs.modLink l Link.damageAssembly
  unfold State.symbolInUp
  cases sym with
  | hello id c seenYou =>
    dsimp only
    split
    · exact damaged
    · exact damaged.faultLink _ _
  | idle ack next hold =>
    exact (damaged.congr (State.receiveIdle_windows _ _ _ _)).congr (State.offerIdle_windows _ _ _ _)
  | nak expected => exact damaged.receiveNak _ _
  | frameStart seq seen count => exact hs.modLink _ _
  | data p => exact hs.congr (State.receiveData_windows _ _ _)
  | malformed => exact hs

theorem alignedSymbol (l : LinkId) (p : Payload) (sym : SymbolKind) : (s.alignedSymbol l p sym).TableLaw := by
  unfold State.alignedSymbol
  split
  · exact hs.symbolInTraining _ _
  · exact hs.symbolInUp _ _ _
  · exact hs.symbolInUp _ _ _
  all_goals exact hs

theorem malformedSymbol (l : LinkId) : (s.malformedSymbol l).TableLaw := by
  unfold State.malformedSymbol
  dsimp only
  split
  · exact (hs.modLink _ _).lineLoss _
  · exact (hs.modLink _ _).modLink _ _

theorem huntSymbol (l : LinkId) (p : Payload) (sym : SymbolKind) : (s.huntSymbol l p sym).TableLaw := by
  unfold State.huntSymbol
  split
  · split
    · exact (hs.modLink _ _).alignedSymbol _ _ _
    · exact hs.modLink _ _
  · exact hs.modLink _ _

theorem receiveSymbol (l : LinkId) (sym : Symbol) : (s.receiveSymbol l sym).TableLaw := by
  have heard : (if decodeSymbol sym = .malformed then s else s.modLink l Link.restartSilence).TableLaw := by
    split
    · exact hs
    · exact hs.modLink _ _
  unfold State.receiveSymbol
  dsimp only
  generalize (if decodeSymbol sym = .malformed then s else s.modLink l Link.restartSilence) = u at heard ⊢
  split
  · exact heard.huntSymbol _ _ _
  · split
    · exact heard.malformedSymbol _
    · exact (heard.modLink _ _).alignedSymbol _ _ _

theorem silenceExpiry (l : LinkId) : (s.silenceExpiry l).TableLaw := by
  unfold State.silenceExpiry
  split
  · exact hs.modLink _ _
  · exact hs.lineLoss _

/-! ## Requests -/

theorem respond (code : Byte) (st : Status) (d : List Byte) : (s.respond code st d).TableLaw :=
  hs.congr (State.respond_windows _ _ _ _)

theorem respondOk (code : Byte) : (s.respondOk code).TableLaw := hs.respond _ _ _

theorem refuse (code : Byte) (r : Reason) : (s.refuse code r).TableLaw := hs.respond _ _ _

theorem linkEnable (link : Byte) : (s.linkEnable link).TableLaw := by
  unfold State.linkEnable
  split
  · exact hs.refuse _ _
  · split
    · exact hs.refuse _ _
    · split
      · exact hs.refuse _ _
      · dsimp only
        split
        · exact ((hs.congr (State.enterHunting_windows _ _)).respondOk _).finish
        · exact ((hs.congr (State.enterUpLoop_windows _ _)).respondOk _).finish

theorem linkDisable (link force : Byte) : (s.linkDisable link force).TableLaw := by
  unfold State.linkDisable
  split
  · exact hs.refuse _ _
  · exact ((hs.disableLink _ _).respondOk _).finish

theorem sweepStart (index : Byte) : (s.sweepStart index).TableLaw := by
  unfold State.sweepStart
  split
  · exact hs.refuse _ _
  · split
    · exact hs.refuse _ _
    · split_ifs
      iterate 4 exact hs.refuse _ _
      exact ((hs.startSweep _ _).respondOk _).finish

theorem sweepAbort (index : Byte) : (s.sweepAbort index).TableLaw := by
  unfold State.sweepAbort
  split
  · exact hs.refuse _ _
  · split
    · exact hs.refuse _ _
    · split
      · exact ((hs.abortSweep _ _).respondOk _).finish
      · exact hs.refuse _ _

theorem softReset : s.softReset.TableLaw := by
  have stale := ((hs.modWindows Window.allStale_redescribes).modLink .a fun k => .reset k.config).modLink .b
    fun k => .reset k.config
  have blocks : s.resetBlocks.TableLaw := (stale.congr (State.softResetHost_windows _)).congr rfl
  exact (blocks.respondOk 0x10).congr rfl

theorem clearWindow (i : Index) (w : Window) : (s.clearWindow i w).TableLaw := by
  have swept : (if (s.link w.link).sweep.active.any fun sw => decide (sw.window = i) then
      s.abortSweep w.link .windowCleared else s).TableLaw := by
    split
    · exact hs.abortSweep _ _
    · exact hs
  have off := ((swept.clearEntry i).congr (State.forgetWindow_windows _ i)).modLink w.link fun k =>
    { k with
      apply := { k.apply with outstanding := k.apply.outstanding.forget i }
      conflict := if w.isShared then k.conflict.dropTag w.tag else k.conflict }
  unfold State.clearWindow
  dsimp only
  split
  · exact off.purgeApply _ _
  · exact off

theorem windowClear (index : Byte) : (s.windowClear index).TableLaw := by
  unfold State.windowClear
  split
  · exact hs.refuse _ _
  · split
    · exact hs.respondOk _
    · exact ((hs.clearWindow _ _).respondOk _).finish

end State.TableLaw

end Sys2Proof.Machine
end

section
/-! SUPPORT. The description of a window that WINDOW_SET carries (R2, R3): when its fields are legal, the entry it makes,
and the checks against the table. -/

namespace Sys2Proof.Machine

/-! ## Coded fields -/

theorem linkByte_of_linkOf {b : Byte} {l : LinkId} (h : linkOf b = some l) : linkByte l = b := by
  unfold linkOf at h
  split at h <;> cases h <;> exact BitVec.eq_of_toNat_eq (by simp [linkByte, *])

theorem linkOf_isSome {b : Byte} : (linkOf b).isSome = true ↔ b.toNat ≤ 1 := by
  unfold linkOf
  split <;> simp_all
  omega

theorem toByte_of_directionOf {b : Byte} {d : Direction} (h : directionOf b = some d) : d.toByte = b := by
  unfold directionOf at h
  split at h <;> cases h <;> exact BitVec.eq_of_toNat_eq (by simp [Direction.toByte, *])

theorem directionOf_isSome {b : Byte} : (directionOf b).isSome = true ↔ b.toNat ≤ 2 := by
  unfold directionOf
  split <;> simp_all
  omega

theorem toByte_of_policyOf {b : Byte} {p : WritePolicy} (h : policyOf b = some p) : p.toByte = b := by
  unfold policyOf at h
  split at h <;> cases h <;> exact BitVec.eq_of_toNat_eq (by simp [WritePolicy.toByte, *])

theorem policyOf_isSome {b : Byte} : (policyOf b).isSome = true ↔ b.toNat ≤ 2 := by
  unfold policyOf
  split <;> simp_all
  omega

theorem toNat_of_tagOf {b : Byte} {t : Tag} (h : tagOf b = some t) : b.toNat ≤ 63 ∧ t.toNat = b.toNat := by
  unfold tagOf at h
  split at h <;> cases h
  refine ⟨‹_›, ?_⟩
  rw [BitVec.toNat_setWidth]
  omega

theorem tagOf_isSome {b : Byte} : (tagOf b).isSome = true ↔ b.toNat ≤ 63 := by
  unfold tagOf
  split <;> simp_all

theorem recordedPolicy_isSome {d : Direction} {b : Byte} :
    (recordedPolicy d b).isSome = true ↔ (d = .imports → b.toNat ≤ 2) := by
  cases d <;> simp [recordedPolicy, policyOf_isSome]

theorem toByte_of_recordedPolicy {d : Direction} {b : Byte} {p : Option WritePolicy}
    (h : recordedPolicy d b = some p) : p.map WritePolicy.toByte = if d.toByte = 1 then some b else none := by
  cases d with
  | exports | shared => cases h; rfl
  | imports =>
    obtain ⟨q, hq, rfl⟩ := Option.map_eq_some_iff.1 h
    simp [Direction.toByte, toByte_of_policyOf hq]

theorem Direction.toByte_eq_one_iff {d : Direction} : d.toByte = 1 ↔ d = .imports := by cases d <;> decide

theorem Direction.toByte_eq_zero_iff {d : Direction} : d.toByte = 0 ↔ d = .exports := by cases d <;> decide

theorem Direction.hasExport_iff {d : Direction} : d.hasExport = true ↔ d ≠ .imports := by cases d <;> decide

theorem Direction.hasImport_iff {d : Direction} : d.hasImport = true ↔ d ≠ .exports := by cases d <;> decide

/-! ## The entry a description makes -/

/-- An entry is made of a legal description, and holds its fields (R2, R3, R6). -/
theorem windowOf_makes {f : WindowFields} {w : Window} (h : windowOf f = some w) : f.Legal ∧ f.Makes w := by
  simp only [windowOf, Option.bind_eq_bind, Option.bind_eq_some_iff] at h
  obtain ⟨l, hl, d, hd, t, ht, p, hp, h⟩ := h
  split at h
  next hr =>
    obtain ⟨hbase, hk, hregion⟩ := hr
    cases h
    have hd' := toByte_of_directionOf hd
    constructor
    · exact ⟨hbase, hk, hregion, linkOf_isSome.1 (by simp [hl]), directionOf_isSome.1 (by simp [hd]),
        (toNat_of_tagOf ht).1, fun h1 => recordedPolicy_isSome.1 (by simp [hp])
          (Direction.toByte_eq_one_iff.1 (hd'.trans (BitVec.eq_of_toNat_eq h1)))⟩
    · refine ⟨rfl, rfl, linkByte_of_linkOf hl, hd', (toNat_of_tagOf ht).2, ?_, ?_, rfl, ?_, ?_, rfl⟩
      · rw [← hd']
        exact toByte_of_recordedPolicy hp
      all_goals
        rw [← hd']
        cases d <;> rfl
  next => cases h

theorem windowOf_isSome {f : WindowFields} (h : f.Legal) : (windowOf f).isSome = true := by
  obtain ⟨l, hl⟩ := Option.isSome_iff_exists.1 (linkOf_isSome.2 h.link)
  obtain ⟨d, hd⟩ := Option.isSome_iff_exists.1 (directionOf_isSome.2 h.direction)
  obtain ⟨t, ht⟩ := Option.isSome_iff_exists.1 (tagOf_isSome.2 h.tag)
  obtain ⟨p, hp⟩ := Option.isSome_iff_exists.1 ((recordedPolicy_isSome (d := d)).2 fun hi =>
    h.policy (by rw [← toByte_of_directionOf hd, hi]; rfl))
  simp only [windowOf, hl, hd, ht, hp, Option.bind_eq_bind, Option.bind_some,
    if_pos (⟨h.base, h.size, h.region⟩ : _ ∧ _ ∧ _), Option.isSome_some]

theorem windowOf_eq_none {f : WindowFields} (h : ¬ f.Legal) : windowOf f = none := by
  cases hw : windowOf f with
  | none => rfl
  | some w => exact absurd (windowOf_makes hw).1 h

theorem windowOf_legal {f : WindowFields} {w : Window} (h : windowOf f = some w) : w.Legal := by
  obtain ⟨hf, hm⟩ := windowOf_makes h
  have himp : f.direction = 1 ↔ w.direction = .imports := by rw [← hm.direction, Direction.toByte_eq_one_iff]
  have hexp : f.direction = 0 ↔ w.direction = .exports := by rw [← hm.direction, Direction.toByte_eq_zero_iff]
  have hpolicy : w.policy.isSome = (w.policy.map WritePolicy.toByte).isSome := by simp
  constructor
  case base => rw [hm.base]; exact hf.base
  case size => rw [hm.k]; exact hf.size
  case region => rw [Window.size, hm.base, hm.k]; exact hf.region
  case exportSide => rw [hm.exportSide]; simp only [himp]; cases w.direction <;> rfl
  case importSide => rw [hm.importSide]; simp only [hexp]; cases w.direction <;> rfl
  case coalesce => rw [hm.coalesce]; simp only [himp]; cases w.direction <;> rfl
  case policy => rw [hpolicy, hm.policy]; simp only [himp]; cases w.direction <;> rfl
  case notice => simp [hm.notice]

/-! ## The checks against the table -/

theorem State.any_window_iff (s : State) (p : Window → Bool) :
    (allIndices.any fun i => (s.window i).any p) = true ↔ ∃ i, ∃ v ∈ s.window i, p v = true := by
  simp only [List.any_eq_true, Option.any_eq_true, Option.mem_def]
  exact ⟨fun ⟨i, _, h⟩ => ⟨i, h⟩, fun ⟨i, h⟩ => ⟨i, mem_allIndices i, h⟩⟩

theorem Window.size_pos (w : Window) : 0 < w.size := by simp [Window.size]

/-- Two regions overlap where they share a byte (R4). -/
theorem Window.overlaps_iff {v w : Window} :
    v.overlaps w = true ↔ ∃ x, (v.base ≤ x ∧ x < v.base + v.size) ∧ w.base ≤ x ∧ x < w.base + w.size := by
  have hv := v.size_pos
  have hw := w.size_pos
  simp only [Window.overlaps, Bool.and_eq_true, decide_eq_true_eq]
  constructor
  · rintro ⟨h1, h2⟩
    exact ⟨max v.base w.base, by omega, by omega⟩
  · rintro ⟨x, h1, h2⟩
    omega

theorem State.overlapsAny_iff {s : State} {f : WindowFields} {w : Window} (hm : f.Makes w) :
    s.overlapsAny w = true ↔ f.Overlaps s := by
  have hsize : w.size = 256 * 2 ^ f.k.toNat := by rw [Window.size, hm.k]
  simp only [State.overlapsAny, State.any_window_iff, WindowFields.Overlaps, Window.overlaps_iff, hm.base, hsize]

theorem linkByte_inj {l l' : LinkId} : linkByte l = linkByte l' ↔ l = l' := by cases l <;> cases l' <;> decide

theorem State.tagInUse_iff {s : State} {f : WindowFields} {w : Window} (hm : f.Makes w) :
    s.tagInUse w = true ↔ f.TagInUse s := by
  simp only [State.tagInUse, State.any_window_iff, WindowFields.TagInUse, Bool.and_eq_true, Bool.or_eq_true,
    decide_eq_true_eq, Direction.hasExport_iff, Direction.hasImport_iff, ← hm.link, ← hm.tag, ← hm.direction, ne_eq,
    Direction.toByte_eq_one_iff, Direction.toByte_eq_zero_iff, linkByte_inj, BitVec.toNat_inj]
  refine exists_congr fun i => exists_congr fun v => and_congr_right fun _ => ?_
  tauto

/-- A window that passes the last two checks of Table 1-3 may stand beside every valid entry (R4, R5). -/
theorem State.apart_of_checks {s : State} {w : Window} (ho : s.overlapsAny w = false) (ht : s.tagInUse w = false) :
    ∀ i, ∀ v ∈ s.window i, v.Apart w := by
  intro i v hv
  simp only [← Bool.not_eq_true, State.overlapsAny, State.tagInUse, State.any_window_iff] at ho ht
  have tags : v.link = w.link → v.tag = w.tag → ((v.direction.hasExport && w.direction.hasExport) ||
      (v.direction.hasImport && w.direction.hasImport)) = false := by
    intro hl hg
    rw [Bool.eq_false_iff]
    exact fun h => ht ⟨i, v, hv, by simpa [hl, hg] using h⟩
  exact ⟨Bool.eq_false_iff.2 fun h => ho ⟨i, v, hv, h⟩, fun hl hg => (Bool.or_eq_false_iff.1 (tags hl hg)).1,
    fun hl hg => (Bool.or_eq_false_iff.1 (tags hl hg)).2⟩

/-! ## WINDOW_SET -/

/-- Every case of WINDOW_SET: one of the five refusals, or a new entry that passed the checks of Table 1-3. -/
theorem State.windowSet_cases (s : State) (index : Byte) (f : WindowFields) :
    (∃ r, s.windowSet index f = s.refuse 0x04 r) ∨
    ∃ i w, windowOf f = some w ∧ s.overlapsAny w = false ∧ s.tagInUse w = false ∧
      s.windowSet index f = (s.setWindow i (some w)).respondOk 0x04 := by
  unfold State.windowSet
  split
  · exact .inl ⟨_, rfl⟩
  · split
    · exact .inl ⟨_, rfl⟩
    · split
      · exact .inl ⟨_, rfl⟩
      · split
        · exact .inl ⟨_, rfl⟩
        · split
          · exact .inl ⟨_, rfl⟩
          · exact .inr ⟨_, _, ‹_›, Bool.eq_false_iff.2 ‹¬ s.overlapsAny _ = true›,
              Bool.eq_false_iff.2 ‹¬ s.tagInUse _ = true›, rfl⟩

theorem State.windowSet_of {s : State} {index : Byte} {i : Index} {f : WindowFields} {w : Window}
    (hi : index.toNat = i.val) (hoff : s.window i = none) (hw : windowOf f = some w) :
    s.windowSet index f =
      if s.overlapsAny w then s.refuse 0x04 .overlap
      else if s.tagInUse w then s.refuse 0x04 .tagInUse
      else (s.setWindow i (some w)).respondOk 0x04 := by
  simp [State.windowSet, indexOf_eq_some hi, hoff, hw]

theorem State.TableLaw.windowSet {s : State} (hs : s.TableLaw) (index : Byte) (f : WindowFields) :
    (s.windowSet index f).TableLaw := by
  rcases s.windowSet_cases index f with ⟨r, h⟩ | ⟨i, w, hw, ho, ht, h⟩ <;> rw [h]
  · exact hs.refuse _ _
  · exact (hs.setEntry (windowOf_legal hw) (State.apart_of_checks ho ht)).respondOk _

theorem State.refuse_of_taking {s : State} {out : Option Response} (h : s.Taking out) (code : Byte) (r : Reason) :
    s.refuse code r = s.answered out code (.refused r) [] := State.respond_of_taking h _ _ _

/-- Settles O7: the entry that the description makes decides each of the last three checks, and what enters. -/
theorem windowSetChecks : Obligations.WindowSetChecks := by
  intro s out index f ht
  have taken : exec (.windowSet index f) s = .next (s.windowSet index f) :=
    State.take_of_taking ht (·.windowSet index f)
  simp only [taken, ← State.refuse_of_taking ht]
  refine ⟨fun hi => ?_, fun i hi => ⟨fun hon => ?_, fun hoff => ⟨fun hl => ?_, ?_⟩⟩⟩
  · simp [State.windowSet, indexOf_eq_none hi]
  · simp [State.windowSet, indexOf_eq_some hi, hon]
  · simp [State.windowSet, indexOf_eq_some hi, hoff, windowOf_eq_none hl]
  · have made : f.Legal → ∃ w, windowOf f = some w ∧ f.Makes w := fun hl => by
      obtain ⟨w, hw⟩ := Option.isSome_iff_exists.1 (windowOf_isSome hl)
      exact ⟨w, hw, (windowOf_makes hw).2⟩
    refine ⟨fun hl ho => ?_, fun hl ho htag => ?_, fun hl ho htag => ?_⟩
    all_goals
      obtain ⟨w, hw, hm⟩ := made hl
      rw [← State.overlapsAny_iff hm] at ho
    · rw [State.windowSet_of hi hoff hw, if_pos ho]
    · rw [← State.tagInUse_iff hm] at htag
      rw [State.windowSet_of hi hoff hw, if_neg ho, if_pos htag]
    · rw [← State.tagInUse_iff hm] at htag
      refine ⟨w, hm, ?_⟩
      rw [State.windowSet_of hi hoff hw, if_neg ho, if_neg htag]
      exact congrArg _ (State.respond_of_active (s := s.setWindow i (some w)) ht.selected _ _ _)

end Sys2Proof.Machine
end

section
/-! SUPPORT. Every step keeps the table law: requests, happenings, resets and ticks. -/

namespace Sys2Proof.Machine

/-- A command that is a request of the management port takes it (R153, Table 12-4). -/
theorem exec_of_request {c : Instr} (h : (commandCode c).isSome = true) (s : State) :
    exec c s = s.take (·.request c) := by
  cases c <;> first | rfl | cases h

namespace State.TableLaw

variable {s t : State} (hs : s.TableLaw)
include hs

/-- Taking a request keeps the table law, whatever the request (R153, Table 12-4). -/
theorem request (c : Instr) : (s.request c).TableLaw := by
  cases c with
  | nop => exact hs.congr (State.markTaken_windows _)
  | partInfo | partConfigGet => exact hs.respond _ _ _
  | partConfigSet f => exact hs.congr (State.partConfigSet_windows _ _)
  | windowSet index f => exact hs.windowSet _ _
  | windowClear index => exact hs.windowClear _
  | windowGet index => exact hs.congr (State.windowGet_windows _ _)
  | linkSet link f => exact hs.congr (State.linkSet_windows _ _ _)
  | linkEnable link => exact hs.linkEnable _
  | linkDisable link force => exact hs.linkDisable _ _
  | linkGet link => exact hs.congr (State.linkGet_windows _ _)
  | flush link => exact hs.congr (State.flush_windows _ _)
  | sweepStart index => exact hs.sweepStart _
  | sweepAbort index => exact hs.sweepAbort _
  | eventPop => exact hs.congr (State.eventPop_windows _)
  | eventClear =>
    have emptied : ({ s with events := [], overflow := false } : State).TableLaw := hs.congr rfl
    exact (emptied.respondOk 0x0F).congr rfl
  | softReset => exact hs.softReset
  | badCommand code => exact hs.congr (State.badCommand_windows _ _)
  | _ => exact hs

theorem endUntaken (clocked : List Byte) : (s.endUntaken clocked).TableLaw := by
  unfold State.endUntaken
  split
  · exact hs
  · split
    · split
      · exact hs.request _
      · exact hs
    · exact hs.congr rfl

theorem take {act : State → State} (ha : (act s).TableLaw) (h : s.take act = .next t) : t.TableLaw := by
  cases h
  split
  · exact ha
  · exact hs

theorem happening {can : Bool} {act : State → State} (ha : (act s).TableLaw) (h : s.happening can act = .next t) :
    t.TableLaw := by
  cases h
  split
  · exact ha.finish
  · exact hs

theorem tick : s.tick.TableLaw := by
  unfold State.tick
  split
  · exact hs
  · exact hs.congr rfl

/-- Every command keeps the table law: a request by its effect, a happening by its act and what every happening ends
with. -/
theorem exec (c : Instr) (h : exec c s = .next t) : t.TableLaw := by
  cases c with
  | transactionBegin =>
    cases h
    split
    · exact hs.congr rfl
    · exact hs
    · exact hs
  | transactionEnd clocked =>
    cases h
    split
    · exact (hs.endUntaken clocked).congr rfl
    all_goals exact hs.congr rfl
  | hardwareReset =>
    cases h
    have hreset : State.reset.TableLaw := State.tableLaw_of_check (by decide)
    exact hreset.congr rfl
  | resetEnd =>
    cases h
    exact hs.congr rfl
  | memoryCompletion status =>
    simp only [Machine.exec, execMemoryCompletion] at h
    split at h
    · cases h
      exact hs
    · cases h
      split
      · exact hs.congr rfl
      · exact (hs.complete _ _).finish
  | hostAccessArrival acc =>
    simp only [Machine.exec, execHostAccessArrival] at h
    exact hs.happening (hs.arrive _) h
  | arbiterChoice =>
    simp only [Machine.exec, execArbiterChoice] at h
    exact hs.happening hs.arbiterChoice h
  | controlRecordDecision l =>
    simp only [Machine.exec, execControlRecordDecision] at h
    exact hs.happening (hs.decideControl _) h
  | frameBuild l =>
    simp only [Machine.exec, execFrameBuild] at h
    exact hs.happening (hs.frameBuild _) h
  | sweepOpenQueued l =>
    simp only [Machine.exec, execSweepOpenQueued] at h
    exact hs.happening (hs.congr (State.queueOpen_windows _ _)) h
  | sweepCloseQueued l =>
    simp only [Machine.exec, execSweepCloseQueued] at h
    exact hs.happening (hs.queueClose _) h
  | flushTimerExpiry l =>
    simp only [Machine.exec, execFlushTimerExpiry] at h
    exact hs.happening (hs.modLink _ _) h
  | transmitChoicePoint l =>
    simp only [Machine.exec, execTransmitChoicePoint] at h
    exact hs.happening (hs.modLink _ _) h
  | frameEnd l =>
    simp only [Machine.exec, execFrameEnd] at h
    exact hs.happening (hs.congr (State.endFrame_windows _ _)) h
  | ackTimerExpiry l =>
    simp only [Machine.exec, execAckTimerExpiry] at h
    exact hs.happening (hs.goBack _) h
  | peerHoldLimitExpiry l =>
    simp only [Machine.exec, execPeerHoldLimitExpiry] at h
    exact hs.happening (hs.faultLink _ _) h
  | trainingTimerExpiry l =>
    simp only [Machine.exec, execTrainingTimerExpiry] at h
    exact hs.happening (hs.faultLink _ _) h
  | symbolArrival l sym =>
    simp only [Machine.exec, execSymbolArrival] at h
    exact hs.happening (hs.receiveSymbol _ _) h
  | silenceTimerExpiry l =>
    simp only [Machine.exec, execSilenceTimerExpiry] at h
    exact hs.happening (hs.silenceExpiry _) h
  | captureHoldExpiry =>
    simp only [Machine.exec, execCaptureHoldExpiry] at h
    exact hs.happening hs.holdExpiry h
  | nop | partInfo | partConfigSet | partConfigGet | windowSet | windowClear | windowGet | linkSet | linkEnable
  | linkDisable | linkGet | flush | sweepStart | sweepAbort | eventPop | eventClear | softReset | badCommand =>
    rw [exec_of_request rfl] at h
    exact hs.take (hs.request _) h

end State.TableLaw

/-- Settles O54: a step is a command on the state with the queue's rest, or a tick; WINDOW_SET, the one command that makes
an entry, makes it past the checks of Table 1-3, and every other change keeps the description of the entry it changes. -/
theorem stepKeepsTableLaw : Obligations.StepKeepsTableLaw := by
  intro s t hs h
  unfold step at h
  split at h
  next c rest _ =>
    have queued : ({ s with pending := rest } : State).TableLaw := hs.congr rfl
    exact queued.exec c h
  next =>
    cases h
    exact hs.tick

end Sys2Proof.Machine
end

section
/-! SUPPORT. What the state holds after reset, and what WINDOW_GET and LINK_GET report of a state. -/

namespace Sys2Proof.Machine

/-! ## Reset -/

@[simp] theorem State.reset_window (i : Index) : State.reset.window i = none := by
  simp [State.reset, State.window]

theorem State.reset_link (l : LinkId) : State.reset.link l = .reset .reset := by cases l <;> rfl

/-- Settles O27. -/
theorem resetValues : Obligations.ResetValues :=
  ⟨State.reset_window, State.reset_link, rfl, rfl, rfl, rfl, rfl, rfl, rfl, rfl, rfl, rfl, rfl, rfl⟩

/-- Settles O58: each law has a Boolean check, and the reset state passes it. -/
theorem lawsHoldAtReset : Obligations.LawsHoldAtReset :=
  have config : LinkConfig.reset.InRange := by constructor <;> decide
  have hold : (Link.reset .reset).HoldLaw := by constructor <;> decide
  ⟨State.withinCapacity_of_check (by decide), ⟨by constructor <;> decide, config, config⟩, ⟨hold, hold⟩,
    show State.reset.intn = State.reset.intnAsserted by decide,
    State.sequenceLaw_of_check (by decide), State.ackTimerLaw_of_check (by decide),
    State.receiverLaw_of_check (by decide), State.tableLaw_of_check (by decide), State.sweepLaw_of_check (by decide),
    State.placeholderLaw_of_check (by decide), State.conflictLaw_of_check (by decide),
    State.wordLaw_of_check (by decide), State.hostLaw_of_check (by decide)⟩

/-! ## WINDOW_GET and LINK_GET -/

theorem Window.optionsByte_eq (w : Window) :
    w.optionsByte = (if w.coalesce = some true then 1 else 0) + (if w.startInStep then 2 else 0) := by
  unfold Window.optionsByte
  split <;> split <;> rfl

theorem Link.peerHold_eq (k : Link) :
    k.peerHold = if k.config.mode = .loop ∧ (k.control.state = .up ∨ k.control.state = .draining) then k.apply.holdFlag
      else k.tx.peerHold := by
  simp only [Link.peerHold, LinkState.carrying_iff]


/-- Settles O8: byte by byte, each coded field by its values. -/
theorem tableAndLinkRead : Obligations.TableAndLinkRead := by
  intro s out ht byte flag frames
  have reported : ∀ code data, s.respond code .ok data = s.answered out code .ok data := fun code data =>
    State.respond_of_taking ht _ _ _
  have window : ∀ index, exec (.windowGet index) s = .next (s.windowGet index) := fun index =>
    State.take_of_taking ht (·.windowGet index)
  have link : ∀ b, exec (.linkGet b) s = .next (s.linkGet b) := fun b => State.take_of_taking ht (·.linkGet b)
  have frames_eq : ∀ c : FrameClass, c.toByte = frames c := fun c => by cases c <;> rfl
  refine ⟨fun index hi => ?_, fun index i hi => ⟨fun hw => ?_, fun w hw => ?_⟩, fun b hb => ?_, fun l => ?_⟩
  · rw [window, State.windowGet, indexOf_eq_none hi, State.refuse_of_taking ht]
  · rw [window, State.windowGet, indexOf_eq_some hi]
    simp only [hw, reported, windowBytes]
  · rw [window, State.windowGet, indexOf_eq_some hi]
    simp only [hw, reported, windowBytes, Window.optionsByte_eq]
    refine congrArg (fun d => Host.Outcome.next (s.answered out 0x06 .ok d)) ?_
    simp only [List.cons.injEq]
    refine ⟨trivial, rfl, rfl, rfl, rfl, rfl, rfl, rfl, trivial, ?policy, trivial,
      ?exportSide, ?importSide, rfl, trivial⟩
    case policy => rcases w.policy with _ | _ | _ | _ <;> rfl
    case exportSide => rcases w.exportSide with _ | _ | _ | _ <;> rfl
    case importSide => rcases w.importSide with _ | _ | _ | _ <;> rfl
  · rw [link, State.linkGet, linkOf_eq_none hb, State.refuse_of_taking ht]
  · have hl : (if l = .a then 0 else 1 : Byte) = linkByte l := by cases l <;> rfl
    dsimp only
    rw [hl, link, State.linkGet, linkOf_linkByte]
    simp only [reported, Link.bytes, Link.peerHold_eq]
    refine congrArg (fun d => Host.Outcome.next (s.answered out 0x0A .ok d))
      (congrArg₂ (· ++ ·) (congrArg₂ (· ++ ·) (congrArg₂ (· ++ ·) ?control ?config) rfl) ?sweep)
    case control =>
      simp only [List.cons.injEq]
      refine ⟨rfl, ?faultReason, ?peer, ?acceptance, ?effectiveClass, rfl, trivial⟩
      case faultReason => rcases (s.link l).control.faultReason with _ | _ | _ | _ | _ | _ | _ <;> rfl
      case peer => rcases (s.link l).control.peer with _ | p <;> rfl
      case acceptance =>
        rcases (s.link l).control.peer with _ | p
        · rfl
        · exact frames_eq p.acceptance
      case effectiveClass =>
        rcases (s.link l).control.effectiveClass with _ | c
        · rfl
        · exact frames_eq c
    case config =>
      rw [LinkConfig.bytes, frames_eq]
      rfl
    case sweep =>
      rw [SweepEngine.bytes]
      rcases (s.link l).sweep.active with _ | sw <;> rfl

end Sys2Proof.Machine
end

section
/-! SUPPORT. What WINDOW_CLEAR leaves of a link and of the host port (R7, R8, R87, R96, R144), and that no drain ends in it. -/

namespace Sys2Proof.Machine

/-! ## The sweep of a window that is cleared -/

/-- The link with its sweep engine IDLE, if it was active for the window; a current read becomes orphan (R113). -/
def Link.stopSweepOf (k : Link) (i : Index) : Link :=
  { k with sweep :=
      if k.sweep.active.map ActiveSweep.window = some i then
        { active := none, read := if k.sweep.read = .current then .orphan else k.sweep.read }
      else k.sweep }

/-- The events that WINDOW_CLEAR of an entry offers for a sweep engine (R7). -/
def SweepEngine.clearEvents (e : SweepEngine) (i : Index) : List Event :=
  if e.active.map ActiveSweep.window = some i then [.sweepAborted i .windowCleared] else []

theorem State.abortSweep_cleared (s : State) (l : LinkId) (i : Index) :
    (if (s.link l).sweep.active.any fun sw => decide (sw.window = i) then s.abortSweep l .windowCleared else s) =
      (s.modLink l (·.stopSweepOf i)).offered ((s.link l).sweep.clearEvents i) := by
  have idle : (s.link l).sweep.active.map ActiveSweep.window ≠ some i → s.modLink l (·.stopSweepOf i) = s := fun h =>
    (State.modLink_congr (g := fun k => k) (by simp [Link.stopSweepOf, h])).trans (State.modLink_id s l)
  cases ha : (s.link l).sweep.active with
  | none => simp [SweepEngine.clearEvents, ha, idle, State.offered]
  | some sw =>
    by_cases hi : sw.window = i
    · subst hi
      simp only [Option.any_some, decide_true, if_true, State.abortSweep, ha, SweepEngine.clearEvents, Option.map_some,
        State.offered, List.foldl_cons, List.foldl_nil]
      congr 1
      apply State.modLink_congr
      simp [Link.stopSweepOf, ha]
    · simp [SweepEngine.clearEvents, ha, hi, idle, State.offered]

/-! ## The access in progress -/

/-- The host port after the window was cleared: a held access to it is a plain access to no window, and one IN_MEMORY is
marked (R8, R144). -/
def HostPort.forget (h : HostPort) (i : Index) : HostPort :=
  match h.classification with
  | some (.window j o) =>
    if j = i then
      if h.phase.held then
        { h with phase := .claiming, classification := some .noWindow, handling := some .plain, holdTimer := .stopped }
      else { h with classification := some (.clearedWindow i o) }
    else h
  | _ => h

theorem HostPort.forget_held {h : HostPort} {i : Index} {o : Offset} (hc : h.classification = some (.window i o))
    (hp : h.phase.held = true) : h.forget i = { h with
      phase := .claiming, classification := some .noWindow, handling := some .plain, holdTimer := .stopped } := by
  simp [HostPort.forget, hc, hp]

theorem HostPort.forget_not_held {h : HostPort} {i : Index} {o : Offset}
    (hc : h.classification = some (.window i o)) (hp : h.phase.held = false) :
    h.forget i = { h with classification := some (.clearedWindow i o) } := by simp [HostPort.forget, hc, hp]

theorem HostPort.forget_other {h : HostPort} {i : Index} (hc : ∀ o, h.classification ≠ some (.window i o)) :
    h.forget i = h := by
  unfold HostPort.forget
  split
  next j o hj => exact if_neg fun e => hc o (by rw [hj, e])
  next => rfl

/-- No access waits behind a drain point for a window that has been cleared (R144). -/
theorem HostPort.forget_phase {h : HostPort} {i : Index} {o : Offset} (hc : h.classification = some (.window i o)) :
    (h.forget i).phase ≠ .waitDrain := by
  cases hp : h.phase.held with
  | true => simp [HostPort.forget_held hc hp]
  | false =>
    rw [HostPort.forget_not_held hc hp]
    intro hw
    simp [show h.phase = .waitDrain from hw, HostPhase.held] at hp

theorem State.forgetWindow_other {s : State} {i : Index} (hc : ∀ o, s.host.classification ≠ some (.window i o)) :
    s.forgetWindow i = s := by
  unfold State.forgetWindow
  split
  next j o hj => exact if_neg fun e => hc o (by rw [hj, e])
  next => rfl

/-- What forgetting a window changes: the host port, and drain points. -/
theorem State.forgetWindow_eq (s : State) (i : Index) :
    s.forgetWindow i = { s with host := s.host.forget i } ∨
    s.forgetWindow i = { s.dropDrainPoint with host := s.host.forget i } := by
  by_cases hc : ∃ o, s.host.classification = some (.window i o)
  · obtain ⟨o, hc⟩ := hc
    cases hp : s.host.phase.held with
    | true => exact .inr (by simp [State.forgetWindow, hc, hp, HostPort.forget_held hc hp, State.dropDrainPoint])
    | false => exact .inl (by simp [State.forgetWindow, hc, hp, HostPort.forget_not_held hc hp])
  · push Not at hc
    exact .inl (by rw [State.forgetWindow_other hc, HostPort.forget_other hc])

/-- Forgetting a window changes nothing but the host port and the links. -/
theorem State.forgetWindow_frame (s : State) (i : Index) : s.forgetWindow i =
    { s with a := (s.forgetWindow i).a, b := (s.forgetWindow i).b, host := s.host.forget i } := by
  rcases s.forgetWindow_eq i with h | h
  · rw [h]
  · rw [h]
    rfl

@[simp] theorem State.forgetWindow_host (s : State) (i : Index) : (s.forgetWindow i).host = s.host.forget i := by
  rw [State.forgetWindow_frame]

@[simp] theorem State.forgetWindow_pending (s : State) (i : Index) : (s.forgetWindow i).pending = s.pending := by
  rw [State.forgetWindow_frame]

@[simp] theorem State.forgetWindow_config (s : State) (i : Index) : (s.forgetWindow i).config = s.config := by
  rw [State.forgetWindow_frame]

@[simp] theorem State.forgetWindow_port (s : State) (i : Index) : (s.forgetWindow i).port = s.port := by
  rw [State.forgetWindow_frame]

@[simp] theorem State.forgetWindow_events (s : State) (i : Index) : (s.forgetWindow i).events = s.events := by
  rw [State.forgetWindow_frame]

@[simp] theorem State.forgetWindow_overflow (s : State) (i : Index) : (s.forgetWindow i).overflow = s.overflow := by
  rw [State.forgetWindow_frame]

@[simp] theorem State.forgetWindow_spi (s : State) (i : Index) : (s.forgetWindow i).spi = s.spi := by
  rw [State.forgetWindow_frame]

@[simp] theorem State.forgetWindow_window (s : State) (i j : Index) : (s.forgetWindow i).window j = s.window j := by
  simp [State.window]

/-- Of a link, forgetting a window changes drain points alone: the apply queue keeps its records. -/
theorem State.forgetWindow_link (s : State) (i : Index) (l : LinkId) :
    ∃ q, q.map ApplyEntry.record = (s.link l).apply.queue.map ApplyEntry.record ∧
      (s.forgetWindow i).link l = { s.link l with apply := { (s.link l).apply with queue := q } } := by
  rcases s.forgetWindow_eq i with h | h <;> rw [h]
  · exact ⟨_, rfl, by cases l <;> rfl⟩
  · exact ⟨clearDrainPoint (s.link l).apply.queue, by simp [clearDrainPoint], by cases l <;> rfl⟩

/-! ## The apply queue -/

theorem mem_purgeTag {t : Tag} {b : Bool} {q : List ApplyEntry} {e : ApplyEntry} (he : e ∈ q) (ht : e.record.tag ≠ t) :
    e ∈ purgeTag t b q := by
  cases b with
  | false => simp [purgeTag, he, ht]
  | true =>
    cases q with
    | nil => simp at he
    | cons x xs =>
      rcases List.mem_cons.1 he with rfl | he
      · simp [purgeTag]
      · simp [purgeTag, he, ht]

/-- What a purge leaves is decided by the records alone. -/
theorem purgeTag_map_record {t : Tag} {b : Bool} {q q' : List ApplyEntry}
    (h : q.map ApplyEntry.record = q'.map ApplyEntry.record) :
    (purgeTag t b q).map ApplyEntry.record = (purgeTag t b q').map ApplyEntry.record := by
  have records : ∀ q : List ApplyEntry, (purgeTag t b q).map ApplyEntry.record =
      if b then (q.map ApplyEntry.record).take 1 ++ (q.map ApplyEntry.record).tail.filter fun r => !decide (r.tag = t)
      else (q.map ApplyEntry.record).filter fun r => !decide (r.tag = t) := by
    intro q
    cases b <;> simp [purgeTag, List.filter_map, Function.comp_def, ← List.map_tail]
  rw [records, records, h]

/-- A link after the purge of a tag, before the drain point is looked at: the hold flag follows the new occupancy, and a
new head offers its seen value (R79, R87, R98). -/
def Link.purged (k : Link) (t : Tag) : Link :=
  let kept := decide (k.apply.outstanding ≠ .none)
  let q := purgeTag t kept k.apply.queue
  { k with
    apply := { k.apply with queue := q, holdFlag := k.flagAt q.length }
    control := { k.control with peerHoldTimer := k.loopTimer (k.flagAt q.length) }
    conflict :=
      if !kept && k.apply.queue.head?.any fun e => decide (e.record.tag = t) then
        match q.head?.bind ApplyEntry.seen with
        | some v => k.horizonAfter v
        | none => k.conflict
      else k.conflict }

theorem State.purgeApply_eq (s : State) (l : LinkId) (t : Tag) :
    s.purgeApply l t = (s.modLink l (·.purged t)).endDrain := by
  unfold State.purgeApply
  dsimp only
  congr 1
  split
  next hl =>
    unfold State.offerHead
    split
    next v hv =>
      rw [State.offerHorizon_eq, State.modLink_modLink]
      apply State.modLink_congr
      rw [State.modLink_link, Link.evalHold_eq] at hv
      dsimp only at hv
      simp only [Link.purged, hl, hv, if_true]
      simp [Link.evalHold_eq, Link.flagAt, Link.loopTimer, Link.horizonAfter]
    next hv =>
      apply State.modLink_congr
      rw [State.modLink_link, Link.evalHold_eq] at hv
      dsimp only at hv
      simp only [Link.purged, hl, hv, if_true]
      simp [Link.evalHold_eq, Link.flagAt, Link.loopTimer]
  next hl =>
    apply State.modLink_congr
    simp only [Link.purged, hl]
    simp [Link.evalHold_eq, Link.flagAt, Link.loopTimer]

/-! ## The link of a window that is cleared -/

/-- The link of a cleared window, its sweep and the access in progress aside: an outstanding apply write decided against
the window is marked, a SHARED window's pending entries go, and an importing window's records are purged (R7, R8). -/
def Link.cleared (k : Link) (i : Index) (w : Window) : Link :=
  let k := { k with
    apply := { k.apply with outstanding := k.apply.outstanding.forget i }
    conflict := if w.isShared then k.conflict.dropTag w.tag else k.conflict }
  if w.direction.hasImport then k.purged w.tag else k

theorem Record.tag_of_isWriteOf {r : Record} {t : Tag} {o : Offset} (h : r.isWriteOf t o = true) : r.tag = t := by
  cases r <;> simp_all [Record.isWriteOf, Record.tag]

/-- While the access waits, its drain point rests on a record of an apply queue (R85). -/
theorem State.HostLaw.exists_drainPoint {s : State} (h : s.HostLaw) (hp : s.host.phase = .waitDrain) :
    ∃ l, ∃ e ∈ (s.link l).apply.queue, e.drainPoint = true := by
  have hd := h.drainPoint
  rw [if_pos hp, State.drainPoints] at hd
  by_contra hn
  push Not at hn
  have none_on : ∀ l, (s.link l).apply.queue.filter (·.drainPoint) = [] := fun l =>
    List.filter_eq_nil_iff.2 (hn l)
  have ha := none_on .a
  have hb := none_on .b
  simp only [State.link] at ha hb
  simp [ha, hb] at hd

/-! ## Events offered leave the blocks as they are -/

@[simp] theorem State.offered_link (s : State) (es : List Event) (l : LinkId) : (s.offered es).link l = s.link l := by
  rw [State.offered_eq]
  cases l <;> rfl

@[simp] theorem State.offered_window (s : State) (es : List Event) (i : Index) :
    (s.offered es).window i = s.window i := by
  rw [State.offered_eq]
  rfl

@[simp] theorem State.offered_host (s : State) (es : List Event) : (s.offered es).host = s.host := by
  rw [State.offered_eq]

@[simp] theorem State.offered_port (s : State) (es : List Event) : (s.offered es).port = s.port := by
  rw [State.offered_eq]

@[simp] theorem State.offered_config (s : State) (es : List Event) : (s.offered es).config = s.config := by
  rw [State.offered_eq]

@[simp] theorem State.offered_pending (s : State) (es : List Event) : (s.offered es).pending = s.pending := by
  rw [State.offered_eq]

@[simp] theorem State.offered_spi (s : State) (es : List Event) : (s.offered es).spi = s.spi := by
  rw [State.offered_eq]

/-! ## The clear of a valid entry -/

/-- The state with an entry OFF, its sweep stopped, and the access in progress apart from it. -/
def State.releaseWindow (s : State) (i : Index) (l : LinkId) : State :=
  (((s.modLink l (·.stopSweepOf i)).offered ((s.link l).sweep.clearEvents i)).setWindow i none).forgetWindow i

/-- The link of the window when its entry has been released: its sweep is stopped, and its apply queue keeps its
records. -/
theorem State.releaseWindow_link (s : State) (i : Index) (l : LinkId) :
    ∃ q, q.map ApplyEntry.record = (s.link l).apply.queue.map ApplyEntry.record ∧
      (s.releaseWindow i l).link l =
        { (s.link l).stopSweepOf i with apply := { (s.link l).apply with queue := q } } := by
  obtain ⟨q, hq, hl⟩ := State.forgetWindow_link
    (((s.modLink l (·.stopSweepOf i)).offered ((s.link l).sweep.clearEvents i)).setWindow i none) i l
  exact ⟨q, by simpa [Link.stopSweepOf] using hq, hl.trans (by simp [Link.stopSweepOf])⟩

theorem State.releaseWindow_link_ne (s : State) (i : Index) {l l' : LinkId} (h : l' ≠ l) :
    ∃ q, q.map ApplyEntry.record = (s.link l').apply.queue.map ApplyEntry.record ∧
      (s.releaseWindow i l).link l' = { s.link l' with apply := { (s.link l').apply with queue := q } } := by
  obtain ⟨q, hq, hl⟩ := State.forgetWindow_link
    (((s.modLink l (·.stopSweepOf i)).offered ((s.link l).sweep.clearEvents i)).setWindow i none) i l'
  exact ⟨q, by simpa [State.modLink_link_ne _ h] using hq, hl.trans (by simp [State.modLink_link_ne _ h])⟩

@[simp] theorem State.releaseWindow_host (s : State) (i : Index) (l : LinkId) :
    (s.releaseWindow i l).host = s.host.forget i := by simp [State.releaseWindow]

/-- An access to another window, and its drain point, are untouched. -/
theorem State.releaseWindow_apply {s : State} {i : Index} (hc : ∀ o, s.host.classification ≠ some (.window i o))
    (l l' : LinkId) : ((s.releaseWindow i l).link l').apply = (s.link l').apply := by
  have hf := State.forgetWindow_other (i := i)
    (s := ((s.modLink l (·.stopSweepOf i)).offered ((s.link l).sweep.clearEvents i)).setWindow i none) (by simpa using hc)
  rw [State.releaseWindow, hf]
  by_cases h : l' = l
  · subst h
    simp [Link.stopSweepOf]
  · simp [State.modLink_link_ne _ h]

theorem Link.cleared_of_hasImport {i : Index} {w : Window} (h : w.direction.hasImport = true) (k : Link) :
    k.cleared i w = ({ k with
      apply := { k.apply with outstanding := k.apply.outstanding.forget i }
      conflict := if w.isShared then k.conflict.dropTag w.tag else k.conflict } : Link).purged w.tag := if_pos h

/-- A drain point on a record of another window's tag outlives the clear. -/
theorem Link.mem_cleared_queue {k : Link} {i : Index} {w : Window} {e : ApplyEntry} (he : e ∈ k.apply.queue)
    (ht : e.record.tag ≠ w.tag) : e ∈ (k.cleared i w).apply.queue := by
  unfold Link.cleared
  dsimp only
  split
  · exact mem_purgeTag he ht
  · exact he

/-- The clear of an importing window ends no drain: an access that waits, waits for another window, whose tag is not the
cleared one's (R5, R85, R144). -/
theorem State.endDrain_cleared {s : State} {i : Index} {w : Window} (ht : s.TableLaw) (hh : s.HostLaw)
    (hw : s.window i = some w) (himp : w.direction.hasImport = true) :
    ((s.releaseWindow i w.link).modLink w.link (·.cleared i w)).endDrain =
      (s.releaseWindow i w.link).modLink w.link (·.cleared i w) := by
  apply State.endDrain_not
  rw [State.modLink_host, State.releaseWindow_host]
  by_cases hc : ∃ o, s.host.classification = some (.window i o)
  · obtain ⟨o, hc⟩ := hc
    exact .inl (HostPort.forget_phase hc)
  push Not at hc
  rw [HostPort.forget_other hc]
  by_cases hp : s.host.phase = .waitDrain
  · obtain ⟨l, e, he, hd⟩ := hh.exists_drainPoint hp
    obtain ⟨j, o, v, hv, hcj, rfl, himpv, hrec⟩ := hh.drainWord l e he hd
    have hji : j ≠ i := fun e => hc o (e ▸ hcj)
    have himpv' : v.direction.hasImport = true := by rw [← (ht.legal j v hv).importSide, himpv]
    rw [← State.releaseWindow_apply hc w.link] at he
    refine .inr ⟨v.link, e, ?_, hd⟩
    by_cases hl : v.link = w.link
    · have htag : v.tag ≠ w.tag := fun htag => by
        simpa [himp, himpv'] using ht.importTags j i hji v hv w hw hl htag
      rw [hl] at he ⊢
      rw [State.modLink_link]
      exact Link.mem_cleared_queue he (by rwa [Record.tag_of_isWriteOf hrec])
    · rwa [State.modLink_link_ne _ hl]
  · exact .inl hp

/-- The whole clear of a valid entry (R7). -/
theorem State.clearWindow_eq {s : State} {i : Index} {w : Window} (ht : s.TableLaw) (hh : s.HostLaw)
    (hw : s.window i = some w) :
    s.clearWindow i w = (s.releaseWindow i w.link).modLink w.link (·.cleared i w) := by
  unfold State.clearWindow
  dsimp only
  rw [State.abortSweep_cleared]
  split
  next himp =>
    rw [← State.endDrain_cleared ht hh hw himp, State.purgeApply_eq, State.modLink_modLink]
    simp only [Link.cleared_of_hasImport himp]
    rfl
  next himp =>
    simp only [Link.cleared, if_neg himp]
    rfl

end Sys2Proof.Machine
end

section
/-! SUPPORT. WINDOW_CLEAR, block by block. -/

namespace Sys2Proof.Machine

/-! ## The blocks of the link that the clear leaves -/

section

variable (k : Link) (i : Index) (w : Window)

@[simp] theorem Link.cleared_config : (k.cleared i w).config = k.config := by
  unfold Link.cleared
  dsimp only
  split <;> rfl

@[simp] theorem Link.cleared_capture : (k.cleared i w).capture = k.capture := by
  unfold Link.cleared
  dsimp only
  split <;> rfl

@[simp] theorem Link.cleared_tx : (k.cleared i w).tx = k.tx := by
  unfold Link.cleared
  dsimp only
  split <;> rfl

@[simp] theorem Link.cleared_rx : (k.cleared i w).rx = k.rx := by
  unfold Link.cleared
  dsimp only
  split <;> rfl

@[simp] theorem Link.cleared_sweep : (k.cleared i w).sweep = k.sweep := by
  unfold Link.cleared
  dsimp only
  split <;> rfl

@[simp] theorem Link.cleared_patience : (k.cleared i w).patience = k.patience := by
  unfold Link.cleared
  dsimp only
  split <;> rfl

/-! ## The blocks of the link that the clear changes -/

theorem ApplyWrite.forget_eq (x : ApplyWrite) :
    x.forget i = if x = .forWindow i then .windowCleared else x := by
  cases x <;> simp [ApplyWrite.forget]

theorem ApplyWrite.forget_eq_none (x : ApplyWrite) : x.forget i = .none ↔ x = .none := by
  rw [ApplyWrite.forget_eq]
  split <;> simp_all

theorem Link.cleared_outstanding : (k.cleared i w).apply.outstanding =
    if k.apply.outstanding = .forWindow i then .windowCleared else k.apply.outstanding := by
  rw [← ApplyWrite.forget_eq]
  unfold Link.cleared
  dsimp only
  split <;> rfl

/-- The hold flag follows the new occupancy, and the peer-hold-limit timer of a LOOP-mode link the flag (R55, R79). -/
theorem Link.cleared_hold :
    let flag := if w.direction = .exports then k.apply.holdFlag else k.flagAt (k.cleared i w).apply.queue.length
    (k.cleared i w).apply.holdFlag = flag ∧
      (k.cleared i w).control = { k.control with peerHoldTimer := k.loopTimer flag } := by
  unfold Link.cleared
  cases w.direction with
  | exports => simp [Direction.hasImport, Link.loopTimer]
  | imports | shared => exact ⟨rfl, rfl⟩

/-- The records that the clear leaves: all but those of an importing window's tag, and an outstanding head (R87). -/
theorem Link.cleared_records : (k.cleared i w).apply.queue.map ApplyEntry.record =
    (if w.direction = .exports then k.apply.queue
     else purgeTag w.tag (decide (k.apply.outstanding ≠ .none)) k.apply.queue).map ApplyEntry.record := by
  unfold Link.cleared
  cases w.direction with
  | exports => rfl
  | imports | shared =>
    simp only [Direction.hasImport, if_true, Link.purged, ne_eq, ApplyWrite.forget_eq_none, reduceCtorEq, if_false]

/-- The conflict unit without the pending entries of a SHARED window (R96). -/
def ConflictUnit.release (c : ConflictUnit) (w : Window) : ConflictUnit :=
  if w.direction = .shared then { c with table := c.table.filter fun e => !decide (e.tag = w.tag) } else c

/-- The conflict unit of the link: the entries of a SHARED window go, and a head that the purge made offers its seen value
to the horizon (R96, R98). -/
theorem Link.cleared_conflict : (k.cleared i w).conflict =
    if w.direction ≠ .exports ∧ k.apply.outstanding = .none ∧ ∃ e ∈ k.apply.queue.head?, e.record.tag = w.tag then
      match (k.cleared i w).apply.queue.head?.bind ApplyEntry.seen with
      | some v => ({ k with conflict := k.conflict.release w } : Link).horizonAfter v
      | none => k.conflict.release w
    else k.conflict.release w := by
  have hr : (if w.isShared then k.conflict.dropTag w.tag else k.conflict) = k.conflict.release w := by
    simp [ConflictUnit.release, Window.isShared, ConflictUnit.dropTag]
  unfold Link.cleared
  rw [hr]
  cases hd : w.direction with
  | exports => simp [Direction.hasImport]
  | imports | shared =>
    simp only [Direction.hasImport, if_true, Link.purged, ne_eq, ApplyWrite.forget_eq_none, reduceCtorEq,
      not_false_eq_true, true_and, Bool.and_eq_true, Bool.not_eq_true', decide_eq_false_iff_not, not_not,
      Option.any_eq_true, decide_eq_true_eq, Option.mem_def]
    rfl

end

/-! ## The links after the clear -/

/-- The link of a cleared window, and its records before the purge. -/
theorem State.clearWindow_link {s : State} {i : Index} {w : Window} (ht : s.TableLaw) (hh : s.HostLaw)
    (hw : s.window i = some w) :
    ∃ q, q.map ApplyEntry.record = (s.link w.link).apply.queue.map ApplyEntry.record ∧
      (s.clearWindow i w).link w.link =
        ({ (s.link w.link).stopSweepOf i with apply := { (s.link w.link).apply with queue := q } } : Link).cleared i w := by
  obtain ⟨q, hq, hl⟩ := s.releaseWindow_link i w.link
  exact ⟨q, hq, by rw [State.clearWindow_eq ht hh hw, State.modLink_link, hl]⟩

/-- The other link keeps everything but a drain point. -/
theorem State.clearWindow_link_ne {s : State} {i : Index} {w : Window} (ht : s.TableLaw) (hh : s.HostLaw)
    (hw : s.window i = some w) {l : LinkId} (h : l ≠ w.link) :
    ∃ q, q.map ApplyEntry.record = (s.link l).apply.queue.map ApplyEntry.record ∧
      (s.clearWindow i w).link l = { s.link l with apply := { (s.link l).apply with queue := q } } := by
  obtain ⟨q, hq, hl⟩ := s.releaseWindow_link_ne i h
  exact ⟨q, hq, by rw [State.clearWindow_eq ht hh hw, State.modLink_link_ne _ h, hl]⟩

/-- What a purge takes depends on the head by its record alone. -/
theorem exists_head_iff {q q' : List ApplyEntry} (h : q.map ApplyEntry.record = q'.map ApplyEntry.record) (t : Tag) :
    (∃ e ∈ q.head?, e.record.tag = t) ↔ ∃ e ∈ q'.head?, e.record.tag = t := by
  have by_record : ∀ q : List ApplyEntry, (∃ e ∈ q.head?, e.record.tag = t) ↔
      ∃ r ∈ (q.map ApplyEntry.record).head?, r.tag = t := fun q => by cases q <;> simp
  rw [by_record, by_record, h]

theorem Link.horizonAfter_table_subset (k : Link) (v : Seq) : ∀ e ∈ (k.horizonAfter v).table, e ∈ k.conflict.table := by
  unfold Link.horizonAfter
  split
  · exact fun e he => (List.mem_filter.1 he).1
  · exact fun e he => he

/-- No pending entry of a SHARED window outlives its clear (R96). -/
theorem Link.cleared_shared {k : Link} {i : Index} {w : Window} (h : w.direction = .shared) :
    ∀ e ∈ (k.cleared i w).conflict.table, e.tag ≠ w.tag := by
  have released : ∀ e ∈ (k.conflict.release w).table, e.tag ≠ w.tag := by simp [ConflictUnit.release, h]
  rw [Link.cleared_conflict]
  split
  · split
    · exact fun e he => released e (Link.horizonAfter_table_subset _ _ e he)
    · exact released
  · exact released

/-- Settles O9: the clear is the release of the entry followed by the change of its link, and ends no drain. -/
theorem windowClearSettles : Obligations.WindowClearSettles := by
  intro s out index htake ht _ hh
  have taken : exec (.windowClear index) s = .next (s.windowClear index) :=
    State.take_of_taking htake (·.windowClear index)
  rw [taken]
  refine ⟨fun hi => ?_, fun i hi => ⟨fun hw => ?_, fun w hw => ?_⟩⟩
  · rw [State.windowClear, indexOf_eq_none hi, State.refuse_of_taking htake]
  · rw [State.windowClear, indexOf_eq_some hi]
    simp only [hw]
    exact congrArg _ (State.respond_of_taking htake _ _ _)
  have cleared := State.clearWindow_eq ht hh hw
  obtain ⟨q, hq, hlink⟩ := State.clearWindow_link ht hh hw
  have offered := State.offered_congr ((s.link w.link).sweep.clearEvents i) (s := s.modLink w.link (·.stopSweepOf i))
    (t := s) (State.modLink_events _ _ _) (State.modLink_overflow _ _ _)
  have events : (s.clearWindow i w).events = (s.offered ((s.link w.link).sweep.clearEvents i)).events := by
    simpa [cleared, State.releaseWindow] using offered.1
  have overflow : (s.clearWindow i w).overflow = (s.offered ((s.link w.link).sweep.clearEvents i)).overflow := by
    simpa [cleared, State.releaseWindow] using offered.2
  have host : (s.clearWindow i w).host = s.host.forget i := by simp [cleared]
  have spi : (s.clearWindow i w).spi = .active out false := by simp [cleared, State.releaseWindow, htake.selected]
  refine ⟨(s.clearWindow i w).respondOk 0x05, ?_, rfl, ?_, ?_, ?_, ?_⟩
  · simp [State.windowClear, indexOf_eq_some hi, hw]
  · rw [State.respondOk, State.respond_of_active spi]
    rfl
  · simp [State.respondOk, cleared, State.releaseWindow]
  · intro j hj
    simp [State.respondOk, cleared, State.releaseWindow, State.setWindow_window_ne _ hj]
  simp only [State.respondOk, State.respond_events, State.respond_overflow, State.respond_link, State.respond_host,
    State.respond_port, State.respond_config, State.respond_pending, host]
  refine ⟨?events, ?overflow, ?sweep, ?outstanding, ?hold, ?conflict, ?records, ?shared, ?held, ?inMemory, ?other,
    ?links, ?port, ?config, ?pending⟩
  case events => exact events
  case overflow => exact overflow
  case sweep => rw [hlink, Link.cleared_sweep]; rfl
  case outstanding => rw [hlink, Link.cleared_outstanding]
  case hold =>
    rw [hlink]
    exact Link.cleared_hold _ i w
  case conflict =>
    rw [hlink, Link.cleared_conflict]
    exact if_congr (and_congr_right fun _ => and_congr_right fun _ => exists_head_iff hq _) rfl rfl
  case records =>
    rw [hlink, Link.cleared_records]
    split
    · exact hq
    · rw [purgeTag_map_record hq]
      simp [purgeTag]
  case shared =>
    intro hs
    rw [hlink]
    exact Link.cleared_shared hs
  case held => exact fun o hc hp => HostPort.forget_held hc hp
  case inMemory => exact fun o hc hp => HostPort.forget_not_held hc (by rw [hp]; rfl)
  case other => exact fun hc => HostPort.forget_other hc
  case links =>
    intro l
    by_cases hl : l = w.link
    · subst hl
      rw [hlink]
      simp [Link.stopSweepOf]
    · obtain ⟨q', hq', hlink'⟩ := State.clearWindow_link_ne ht hh hw hl
      rw [hlink']
      exact ⟨rfl, rfl, rfl, rfl, rfl, fun _ => ⟨hq', rfl, rfl, rfl, rfl, rfl⟩⟩
  case port => simp [cleared, State.releaseWindow]
  case config => simp [cleared, State.releaseWindow]
  case pending => simp [cleared, State.releaseWindow]

end Sys2Proof.Machine
end

section
/-! SUPPORT. What an operation can do to one link, as far as the capacities and the sweep engine go: one lemma for each
change of a link that the model makes. -/

namespace Sys2Proof.Machine

/-! ## The two sides of a change of a link -/

/-- The number of placeholders in the capture queue of a link (R19). -/
def Link.placeholders (k : Link) : Nat := (k.capture.queue.filter CaptureEntry.isPlaceholder).length

/-- From `k` to `k'` the configuration stayed, no queue and no table grew past its capacity, a list that must be empty
stayed empty, and the hold flag stayed with its occupancy or was evaluated (R20, R43, R57, R77, R79, R92). -/
structure Link.Fits (k k' : Link) : Prop where
  config : k'.config = k.config
  capture : k'.capture.queue.length ≤ max k.capture.queue.length Config.captureCapacity
  apply : k'.apply.queue.length ≤ max k.apply.queue.length Config.applyCapacity
  pending : k'.conflict.table.length ≤ max k.conflict.table.length Config.pendingCapacity
  inFlight : k'.tx.retransmit.length ≤ max k.tx.retransmit.length k.config.inFlightLimit
  emptyList : (k.control.state.carrying = false → k.tx.retransmit = []) →
    k'.control.state.carrying = false → k'.tx.retransmit = []
  hold : (k'.apply.queue.length = k.apply.queue.length ∧ k'.apply.holdFlag = k.apply.holdFlag) ∨
    k'.apply.holdFlag = k.flagAt k'.apply.queue.length

/-- From `k` to `k'` the change fits, the sweep engine stayed with its window and its read, no placeholder entered, and the
link did not leave UP under an active engine (R19, R106, R113). -/
structure Link.Evolves (k k' : Link) : Prop extends Link.Fits k k' where
  placeholders : k'.placeholders ≤ k.placeholders
  read : k'.sweep.read = k.sweep.read
  window : k'.sweep.active.map ActiveSweep.window = k.sweep.active.map ActiveSweep.window
  up : k.control.state = .up → k'.control.state = .up ∨ k.sweep.active = none

/-- What the two relations speak of, and nothing else of a link. -/
def Link.footprint (k : Link) : LinkConfig × LinkState × List CaptureEntry × List ApplyEntry × Bool × List PendingWrite ×
    List Frame × SweepEngine :=
  (k.config, k.control.state, k.capture.queue, k.apply.queue, k.apply.holdFlag, k.conflict.table, k.tx.retransmit, k.sweep)

theorem Link.Evolves.of_footprint {k k' : Link} (h : k'.footprint = k.footprint) : k.Evolves k' := by
  simp only [Link.footprint, Prod.mk.injEq] at h
  obtain ⟨config, state, capture, apply, hold, pending, list, sweep⟩ := h
  exact {
    config
    capture := by rw [capture]; exact le_max_left _ _
    apply := by rw [apply]; exact le_max_left _ _
    pending := by rw [pending]; exact le_max_left _ _
    inFlight := by rw [list]; exact le_max_left _ _
    emptyList := by rw [state, list]; exact fun h => h
    hold := .inl ⟨by rw [apply], hold⟩
    placeholders := by rw [Link.placeholders, capture]; exact le_rfl
    read := by rw [sweep]
    window := by rw [sweep]
    up := by rw [state]; exact .inl }

theorem Link.evolves_refl (k : Link) : k.Evolves k := .of_footprint rfl

namespace Link

variable (k : Link)

/-! ## Capture block -/

theorem evolves_flushDue : k.Evolves { k with capture := { k.capture with flushDue := true } } := .of_footprint rfl

theorem evolves_flushExpiry : k.Evolves k.flushExpiry := .of_footprint rfl

theorem hasSlot_iff : k.hasSlot = true ↔ k.capture.queue.length < Config.captureCapacity := by simp [hasSlot]

theorem fits_enqueue {k : Link} (h : k.hasSlot = true) (e : CaptureEntry) : k.Fits (k.enqueue e) :=
  { k.evolves_refl.toFits with
    capture := by
      have := k.hasSlot_iff.1 h
      simp only [enqueue, List.length_append, List.length_singleton]
      omega }

theorem placeholders_enqueue (e : CaptureEntry) :
    (k.enqueue e).placeholders = k.placeholders + if e.isPlaceholder then 1 else 0 := by
  cases h : e.isPlaceholder <;> simp [placeholders, enqueue, h]

theorem evolves_enqueue {k : Link} (h : k.hasSlot = true) (r : Record) : k.Evolves (k.enqueue (.record r)) :=
  { k.evolves_refl with
    toFits := fits_enqueue h _
    placeholders := by simp [placeholders_enqueue, CaptureEntry.isPlaceholder] }

end Link

theorem CaptureEntry.merge_isPlaceholder (m : LaneMask) (d : Word) (e : CaptureEntry) :
    (e.merge m d).isPlaceholder = e.isPlaceholder := by
  unfold CaptureEntry.merge
  split <;> rfl

/-- A merge leaves the slots as they are, but for what the record in one of them holds (R24). -/
theorem mergeNewest_map_isPlaceholder (t : Tag) (o : Offset) (m : LaneMask) (d : Word) (q : List CaptureEntry) :
    (mergeNewest t o m d q).map CaptureEntry.isPlaceholder = q.map CaptureEntry.isPlaceholder := by
  induction q with
  | nil => rfl
  | cons e q ih =>
    unfold mergeNewest
    split_ifs <;> simp [ih, CaptureEntry.merge_isPlaceholder]

theorem placeholders_of_map {q q' : List CaptureEntry}
    (h : q'.map CaptureEntry.isPlaceholder = q.map CaptureEntry.isPlaceholder) :
    (q'.filter CaptureEntry.isPlaceholder).length = (q.filter CaptureEntry.isPlaceholder).length := by
  have count : ∀ q : List CaptureEntry,
      (q.filter CaptureEntry.isPlaceholder).length = (q.map CaptureEntry.isPlaceholder).count true := fun q => by
    rw [← List.countP_eq_length_filter, List.count, List.countP_map]
    exact List.countP_congr fun e _ => by simp
  rw [count, count, h]

/-- The data of a read takes the place of its placeholder, and no slot is added (R25). -/
theorem fillPlaceholder_length_le (c : Bool) (d : Word) (q : List CaptureEntry) :
    (fillPlaceholder c d q).length ≤ q.length := by
  induction q with
  | nil => exact le_rfl
  | cons e q ih =>
    cases e with
    | placeholder t o => exact le_rfl
    | record r =>
      simp only [fillPlaceholder]
      split
      · exact ih.trans (Nat.le_succ _)
      · exact Nat.succ_le_succ ih

theorem fillPlaceholder_placeholders (c : Bool) (d : Word) (q : List CaptureEntry) :
    ((fillPlaceholder c d q).filter CaptureEntry.isPlaceholder).length =
      (q.filter CaptureEntry.isPlaceholder).length - 1 := by
  induction q with
  | nil => rfl
  | cons e q ih =>
    cases e with
    | placeholder t o => rfl
    | record r =>
      simp only [fillPlaceholder]
      split <;> simp [CaptureEntry.isPlaceholder, ih]

/-- The link with its placeholder removed unfilled, if it holds one (R25, R95). -/
def Link.dropPlaceholder (k : Link) : Link :=
  match placeholderWord k.capture.queue with
  | none => k
  | some (t, o) =>
    let q := k.capture.queue.filter fun e => !e.isPlaceholder
    { k with
      capture := { k.capture with
        queue := q
        flushTimer := if q.isEmpty then .stopped else k.capture.flushTimer }
      conflict :=
        if k.control.rank = .senior then k.conflict.unfilled t o (k.tx.nextSend - 1) q else k.conflict }

theorem State.removePlaceholder_eq (s : State) (l : LinkId) :
    s.removePlaceholder l = s.modLink l Link.dropPlaceholder := rfl

theorem placeholders_eq_zero_of_placeholderWord {q : List CaptureEntry} (h : placeholderWord q = none) :
    q.filter CaptureEntry.isPlaceholder = [] := by
  induction q with
  | nil => rfl
  | cons e q ih =>
    cases e with
    | placeholder t o => cases h
    | record r => simpa [CaptureEntry.isPlaceholder] using ih h

theorem ConflictUnit.unfilled_length_le (c : ConflictUnit) (t : Tag) (o : Offset) (recent : Seq)
    (queue : List CaptureEntry) : (c.unfilled t o recent queue).table.length ≤ c.table.length := by
  unfold ConflictUnit.unfilled
  split
  · exact le_rfl
  · exact List.length_filterMap_le _ _

namespace Link

variable (k : Link)

theorem placeholders_dropPlaceholder : k.dropPlaceholder.placeholders = 0 := by
  unfold placeholders dropPlaceholder
  split
  next h => rw [placeholders_eq_zero_of_placeholderWord h, List.length_nil]
  next => simp [List.filter_filter]

theorem evolves_dropPlaceholder : k.Evolves k.dropPlaceholder := by
  have none_left := k.placeholders_dropPlaceholder
  unfold dropPlaceholder at none_left ⊢
  split
  · exact k.evolves_refl
  next t o hw =>
    simp only [hw] at none_left
    exact { k.evolves_refl with
      capture := le_max_of_le_left (List.length_filter_le _ _)
      pending := by
        dsimp only
        split
        · exact le_max_of_le_left (k.conflict.unfilled_length_le _ _ _ _)
        · exact le_max_left _ _
      placeholders := none_left.le.trans (Nat.zero_le _) }

/-- The word of a capture goes to the conflict unit at UNKNOWN and SENIOR rank (R93). -/
def noted (w : Window) (o : Offset) (k : Link) : Link :=
  if w.isShared ∧ (k.control.rank = .unknown ∨ k.control.rank = .senior) then
    { k with conflict := k.conflict.capture w.tag o }
  else k

theorem evolves_noted {k : Link} {w : Window} {o : Offset} (h : k.pendingRoom w o = true) :
    k.Evolves (k.noted w o) := by
  unfold noted
  split
  next hw =>
    obtain ⟨hs, hr⟩ := hw
    exact { k.evolves_refl with
      pending := by
        unfold ConflictUnit.capture
        split
        · simp
        next hno =>
          have room : k.conflict.table.length < Config.pendingCapacity := by
            rcases hr with hr | hr <;> simpa [pendingRoom, hs, hr, hno] using h
          simp only [List.length_append, List.length_singleton]
          omega }
  next => exact k.evolves_refl

/-- A host write merges, or its record enters into a free slot (R23, R24). -/
theorem evolves_captureWrite {k : Link} {w : Window} {o : Offset} (h : (k.mergesInto w o || k.hasSlot) = true)
    (m : LaneMask) (d : Word) :
    k.Evolves (if k.mergesInto w o then
        { k with capture := { k.capture with queue := mergeNewest w.tag o m d k.capture.queue } }
      else k.enqueue (.record (.write w.tag o m d))) := by
  split
  next =>
    have slots := mergeNewest_map_isPlaceholder w.tag o m d k.capture.queue
    exact { k.evolves_refl with
      capture := le_max_of_le_left (by simpa using (congrArg List.length slots).le)
      placeholders := (placeholders_of_map slots).le }
  next hm => exact evolves_enqueue (by simpa [hm] using h) _

/-! ## Apply queue and conflict unit -/

theorem evolves_markNewest (t : Tag) (o : Offset) :
    k.Evolves { k with apply := { k.apply with queue := markNewest t o k.apply.queue } } := by
  have length : ∀ q : List ApplyEntry, (markNewest t o q).length = q.length := by
    intro q
    induction q with
    | nil => rfl
    | cons e q ih =>
      unfold markNewest
      split_ifs <;> simp [ih]
  exact { k.evolves_refl with apply := le_max_of_le_left (length _).le, hold := .inl ⟨length _, rfl⟩ }

theorem evolves_clearDrainPoint :
    k.Evolves { k with apply := { k.apply with queue := clearDrainPoint k.apply.queue } } :=
  { k.evolves_refl with
    apply := le_max_of_le_left (by simp [clearDrainPoint])
    hold := .inl ⟨by simp [clearDrainPoint], rfl⟩ }

/-- The apply queue changes to one that has room, and the hold flag is evaluated (R79). -/
theorem evolves_evalHold (q : List ApplyEntry) (x : ApplyWrite)
    (h : q.length ≤ max k.apply.queue.length Config.applyCapacity) :
    k.Evolves (Link.evalHold { k with apply := { k.apply with queue := q, outstanding := x } }) := by
  rw [Link.evalHold_eq]
  exact { k.evolves_refl with apply := h, hold := .inr rfl }

theorem roomForFrame_iff (n : Nat) : k.roomForFrame n = true ↔ n ≤ Config.applyCapacity - k.apply.queue.length := by
  simp [roomForFrame]

theorem evolves_takeRecords {k : Link} {items : List Record} (h : k.roomForFrame items.length = true) (seen : Seq) :
    k.Evolves (k.takeRecords seen items) := by
  have room := (k.roomForFrame_iff _).1 h
  refine k.evolves_evalHold _ k.apply.outstanding ?_
  simp only [List.length_append, List.length_map]
  omega

theorem horizonAfter_length_le (v : Seq) : (k.horizonAfter v).table.length ≤ k.conflict.table.length := by
  unfold horizonAfter
  split
  · exact List.length_filter_le _ _
  · exact le_rfl

theorem evolves_horizonAfter (v : Seq) : k.Evolves { k with conflict := k.horizonAfter v } :=
  { k.evolves_refl with
    pending := le_max_of_le_left (k.horizonAfter_length_le v) }

theorem purgeTag_length_le (t : Tag) (b : Bool) (q : List ApplyEntry) : (purgeTag t b q).length ≤ q.length := by
  cases b with
  | false => exact List.length_filter_le _ _
  | true =>
    cases q with
    | nil => exact le_rfl
    | cons e q => exact Nat.succ_le_succ (List.length_filter_le _ q)

theorem evolves_purged (t : Tag) : k.Evolves (k.purged t) :=
  { k.evolves_refl with
    apply := le_max_of_le_left (purgeTag_length_le _ _ _)
    hold := .inr rfl
    pending := by
      refine le_max_of_le_left ?_
      unfold purged
      dsimp only
      split
      · split
        · exact k.horizonAfter_length_le _
        · exact le_rfl
      · exact le_rfl }

theorem evolves_cleared (i : Index) (w : Window) :
    k.Evolves { k with
      apply := { k.apply with outstanding := k.apply.outstanding.forget i }
      conflict := if w.isShared then k.conflict.dropTag w.tag else k.conflict } :=
  { k.evolves_refl with
    pending := by
      refine le_max_of_le_left ?_
      dsimp only
      split
      · exact List.length_filter_le _ _
      · exact le_rfl }

/-! ## Sweep engine -/

theorem fits_sweep (e : SweepEngine) : k.Fits { k with sweep := e } := { k.evolves_refl.toFits with }

/-- The engine goes on with its window (R108, R111). -/
theorem evolves_sweep {k : Link} {sw next : ActiveSweep} (ha : k.sweep.active = some sw)
    (hw : next.window = sw.window) : k.Evolves { k with sweep := { k.sweep with active := some next } } :=
  { k.evolves_refl with window := by simp [ha, hw] }

/-! ## Transmitter -/

/-- The retransmit list does not grow, and nothing else that the laws speak of changes. -/
theorem evolves_tx {k : Link} {tx : Transmitter} (h : tx.retransmit.length ≤ k.tx.retransmit.length)
    (control : LinkControl) (hc : control.state = k.control.state) : k.Evolves { k with tx, control } :=
  { k.evolves_refl with
    inFlight := le_max_of_le_left h
    emptyList empty hs := by
      rw [hc] at hs
      rw [empty hs] at h
      exact List.length_eq_zero_iff.1 (Nat.le_zero.1 h)
    up hs := .inl (hc.trans hs) }

theorem evolves_acknowledge (a : Seq) : k.Evolves (k.acknowledge a) := by
  unfold acknowledge
  dsimp only
  split
  · exact k.evolves_refl
  · exact evolves_tx (List.dropWhile_suffix _).length_le k.control rfl

theorem evolves_setPeerHold (b : Bool) : k.Evolves (k.setPeerHold b) :=
  { k.evolves_refl with
    up := .inl }

theorem markFirstUnsent_length (fs : List Frame) : (markFirstUnsent fs).length = fs.length := by
  induction fs with
  | nil => rfl
  | cons f fs ih =>
    unfold markFirstUnsent
    split <;> simp [ih]

theorem evolves_startFrame : k.Evolves k.startFrame := by
  unfold startFrame
  split
  · exact k.evolves_refl
  · exact evolves_tx (markFirstUnsent_length _).le k.control rfl

theorem evolves_chooseSymbol : k.Evolves k.chooseSymbol := by
  unfold chooseSymbol
  split
  · exact .of_footprint rfl
  · split
    · exact k.evolves_startFrame
    · exact .of_footprint rfl

theorem evolves_choicePoint (nodeId : Byte) : k.Evolves (k.choicePoint nodeId) := by
  unfold choicePoint
  split
  · exact k.evolves_chooseSymbol
  · exact k.evolves_chooseSymbol
  all_goals exact .of_footprint rfl

theorem evolves_loopStart : k.Evolves k.loopStart := by
  unfold loopStart
  split
  · exact k.evolves_startFrame
  · exact k.evolves_refl

/-! ## Receiver -/

theorem evolves_restartSilence : k.Evolves k.restartSilence := .of_footprint rfl

theorem evolves_requestNak : k.Evolves k.requestNak := by
  unfold requestNak
  split <;> exact .of_footprint rfl

theorem evolves_damage : k.Evolves k.damage := by
  unfold damage requestNak
  split <;> exact .of_footprint rfl

theorem evolves_damageAssembly : k.Evolves k.damageAssembly := by
  unfold damageAssembly
  split
  · exact k.evolves_damage
  · exact k.evolves_refl

theorem evolves_beginFrame (seq seen : Seq) (count : Nat) (p : Payload) : k.Evolves (k.beginFrame seq seen count p) := by
  unfold beginFrame
  split
  · exact k.evolves_damage
  · exact .of_footprint rfl

theorem evolves_align : k.Evolves k.align :=
  { k.evolves_refl with
    emptyList empty := by
      unfold align
      dsimp only
      split
      next h => exact fun _ => empty (by rw [h]; rfl)
      next => exact empty
    up h := by simp [align, h] }

/-! ## Link control -/

theorem evolves_enterUp (rank : Rank) (cls : FrameClass) (hold : Bool) :
    k.Evolves ((k.startUp rank cls).setPeerHold hold) :=
  { k.evolves_refl with
    pending := by
      refine le_max_of_le_left ?_
      unfold startUp setPeerHold
      dsimp only
      split
      · exact Nat.zero_le _
      · exact le_rfl
    emptyList _ := nofun
    up _ := .inl rfl }

theorem evolves_tick : k.Evolves k.tick := .of_footprint rfl

/-- A link that is neither UP nor DRAINING takes a state that is no more of them. -/
theorem evolves_idleState {k : Link} (h : k.control.state.carrying = false) (control : LinkControl) (tx : Transmitter)
    (ht : tx.retransmit = k.tx.retransmit) (rx : Receiver) : k.Evolves { k with control, tx, rx } :=
  { k.evolves_refl with
    inFlight := le_max_of_le_left (by rw [ht])
    emptyList empty _ := ht.trans (empty h)
    up hu := by rw [hu] at h; cases h }

theorem fits_draining : k.Fits { k with control := { k.control with state := .draining } } :=
  { k.evolves_refl.toFits with
    emptyList _ := nofun }

theorem fits_goDown (r : Option FaultReason) : k.Fits (k.goDown r) := by
  rw [Link.goDown_eq]
  exact { k.evolves_refl with
    capture := Nat.zero_le _
    apply := le_max_of_le_left (by simpa using List.length_filter_le _ _)
    pending := Nat.zero_le _
    inFlight := Nat.zero_le _
    emptyList := fun _ _ => rfl
    hold := .inr rfl }

end Link

end Sys2Proof.Machine
end

section
/-! SUPPORT. What a step can do, said once: the changes that the laws of capacities, of sweeps and of placeholders can tell
apart (`State.Move`), and that every operation is a run of them (`State.Moves`). A law that every one of these changes keeps
is kept by every operation. -/

namespace Sys2Proof.Machine

/-! ## The changes -/

/-- The link with its sweep engine IDLE; a current read becomes orphan (R113). -/
def Link.stopSweep (k : Link) : Link :=
  { k with sweep := { active := none, read := if k.sweep.read = .current then .orphan else k.sweep.read } }

/-- One change of the machine. -/
inductive State.Move (s : State) : State → Prop
  /-- The waiting commands, the host port, the arbiter's pointers, INTN or the management port change. -/
  | outside (t : State) (h : t = { s with
      pending := t.pending, host := t.host, applyPointer := t.applyPointer, sweepPointer := t.sweepPointer,
      intn := t.intn, response := t.response, spi := t.spi }) : Move s t
  /-- Events are offered or removed (R158, R160). -/
  | events (es : List Event) (o : Bool) (h : es.length ≤ max s.events.length Config.eventCapacity) :
    Move s { s with events := es, overflow := o }
  /-- The part configuration is replaced (R156). -/
  | partConfig (cfg : PartConfig) (h : cfg.InRange) : Move s { s with config := cfg }
  /-- A link changes, its sweep engine staying with its window and its read. -/
  | link (l : LinkId) (f : Link → Link) (h : (s.link l).Evolves (f (s.link l))) : Move s (s.modLink l f)
  /-- A link that does not run takes a configuration (R119). -/
  | configure (l : LinkId) (cfg : LinkConfig) (hrun : (s.linkState l).running = false) (h : cfg.InRange) :
    Move s (s.modLink l (·.configure cfg))
  /-- Soft reset of the window table and of both links (R162). -/
  | softReset : Move s (((s.modWindows Window.allStale).modLink .a fun k => .reset k.config).modLink .b
      fun k => .reset k.config)
  /-- An entry changes in its notice or its import side alone. -/
  | entry (i : Index) (f : Window → Window)
      (h : ∀ w, (f w).link = w.link ∧ (f w).direction = w.direction ∧ (f w).exportSide = w.exportSide) :
    Move s (s.modWindow i f)
  /-- The exporting side of a window goes from IN_STEP to STALE (R12). -/
  | exportStale (i : Index) (w : Window) (hw : s.window i = some w) (hx : w.exportSide = some .inStep) :
    Move s (s.modWindow i (·.withExport .stale))
  /-- The sides of the windows of a link without an active sweep become STALE (R15). -/
  | linkStale (l : LinkId) (h : (s.link l).sweep.active = none) : Move s (s.modWindows (Window.linkDown l))
  /-- An entry becomes valid (R3, R6). -/
  | setEntry (i : Index) (w : Window) (hoff : s.window i = none) (hx : w.exportSide ≠ some .sweeping)
      (hside : w.exportSide.isSome = w.direction.hasExport) : Move s (s.setWindow i (some w))
  /-- A valid entry becomes OFF, its sweep stopped (R7). -/
  | clearEntry (i : Index) (w : Window) (hw : s.window i = some w) :
    Move s ((s.modLink w.link (·.stopSweepOf i)).setWindow i none)
  /-- The engine of an UP link starts to sweep a window that exports (R107). -/
  | startSweep (i : Index) (w : Window) (hw : s.window i = some w) (hx : w.direction.hasExport = true)
      (hup : s.linkState w.link = .up) (hidle : (s.link w.link).sweep.active = none) :
    Move s ((s.modWindow i (·.withExport .sweeping)).modLink w.link fun k =>
      { k with sweep := { k.sweep with active := some { phase := .opening, window := i, next := 0 } } })
  /-- A sweep ends with the exporting side IN_STEP, or is aborted and leaves it STALE; the link may then leave UP (R112,
  R113). -/
  | endSweep (l : LinkId) (f : Link → Link) (sw : ActiveSweep) (x : ExportState) (hx : x ≠ .sweeping)
      (hsw : (s.link l).sweep.active = some sw) (hfit : (s.link l).Fits (f (s.link l)))
      (hph : (f (s.link l)).placeholders ≤ (s.link l).placeholders) (hidle : (f (s.link l)).sweep.active = none)
      (hread : (f (s.link l)).sweep.read = .none ↔ (s.link l).sweep.read = .none) :
    Move s ((s.modLink l f).modWindow sw.window (·.withExport x))
  /-- A sweep read is granted the free port, with its placeholder (R110). -/
  | grantRead (l : LinkId) (f : Link → Link) (p : PortTransaction) (hrun : s.inReset = false) (hport : s.port = none)
      (hp : p.owner = .sweep l) (hfit : (s.link l).Fits (f (s.link l)))
      (hph : (f (s.link l)).placeholders ≤ (s.link l).placeholders + 1)
      (hread : (f (s.link l)).sweep.read = .current) (hactive : (f (s.link l)).sweep.active = (s.link l).sweep.active)
      (hstate : (f (s.link l)).control.state = (s.link l).control.state) :
    Move s { s.modLink l f with port := some p }
  /-- A sweep read leaves the port, and its placeholder is filled or removed (R111, R115, R116). -/
  | endRead (l : LinkId) (f : Link → Link) (p : PortTransaction) (hport : s.port = some p) (hp : p.owner = .sweep l)
      (hfit : (s.link l).Fits (f (s.link l))) (hph : (f (s.link l)).placeholders ≤ (s.link l).placeholders)
      (hgone : (s.link l).sweep.read ≠ .none → (f (s.link l)).placeholders ≤ (s.link l).placeholders - 1)
      (hread : (f (s.link l)).sweep.read = .none) (hactive : (f (s.link l)).sweep.active = (s.link l).sweep.active)
      (hstate : (f (s.link l)).control.state = (s.link l).control.state) :
    Move s (({ s with port := none } : State).modLink l f)
  /-- Another claim is granted the free port (R147). -/
  | grantPort (p : PortTransaction) (hport : s.port = none) (hp : ∀ l, p.owner ≠ .sweep l) :
    Move s { s with port := some p }
  /-- Another transaction leaves the port (R147). -/
  | freePort (p : PortTransaction) (hport : s.port = some p) (hp : ∀ l, p.owner ≠ .sweep l) :
    Move s { s with port := none }

/-- A run of changes. -/
def State.Moves : State → State → Prop := Relation.ReflTransGen State.Move

theorem State.moves_refl (s : State) : s.Moves s := .refl

/-- No change begins or ends hardware reset. -/
theorem State.Move.inReset {s t : State} (h : s.Move t) : t.inReset = s.inReset := by
  cases h with
  | outside _ h => rw [h]
  | linkStale => rw [State.modWindows_eq]
  | softReset => rw [State.modLink_inReset, State.modLink_inReset, State.modWindows_eq]
  | _ => simp

theorem State.Moves.inReset {s t : State} (h : s.Moves t) : t.inReset = s.inReset := by
  induction h with
  | refl => rfl
  | tail _ m ih => rw [m.inReset, ih]

/-! ## Fields that a change passes by -/

theorem State.modLink_withPort (s : State) (l : LinkId) (f : Link → Link) (p : Option PortTransaction) :
    ({ s with port := p } : State).modLink l f = { s.modLink l f with port := p } := by cases l <;> rfl

@[simp] theorem State.withPort_link (s : State) (p : Option PortTransaction) (l : LinkId) :
    ({ s with port := p } : State).link l = s.link l := by cases l <;> rfl

theorem State.respond_eq (s : State) (code : Byte) (st : Status) (d : List Byte) : s.respond code st d =
    { s with response := (s.respond code st d).response, spi := (s.respond code st d).spi } := by
  unfold State.respond State.markTaken
  split <;> rfl

theorem State.markTaken_eq (s : State) : s.markTaken = { s with spi := s.markTaken.spi } := by
  unfold State.markTaken
  split <;> rfl

theorem State.softResetHost_eq (s : State) : s.softResetHost = { s with host := s.softResetHost.host } := by
  unfold State.softResetHost
  repeat' split
  all_goals rfl

theorem State.holdBecomesCapturing_eq (s : State) (i : Index) :
    s.holdBecomesCapturing i = { s with host := (s.holdBecomesCapturing i).host } := by
  unfold State.holdBecomesCapturing
  dsimp only
  split <;> rfl

theorem State.offered_setWindow (s : State) (es : List Event) (i : Index) (e : Option Window) :
    (s.offered es).setWindow i e = (s.setWindow i e).offered es := by
  induction es generalizing s with
  | nil => rfl
  | cons x xs ih =>
    simp only [State.offered, List.foldl_cons] at ih ⊢
    rw [ih]
    congr 1
    simp only [State.setWindow, State.raise_windows, State.raise_withWindows]

theorem State.raise_length_le (s : State) (e : Event) :
    (s.raise e).events.length ≤ max s.events.length Config.eventCapacity := by
  unfold State.raise
  split
  next h =>
    rcases hn : s.events.getLast? with _ | x
    · simp [hn] at h
    · have : 0 < s.events.length := by
        rcases hs : s.events with _ | _
        · simp [hs] at hn
        · simp
      simp
      omega
  next =>
    split
    · simp only [List.length_append, List.length_singleton]
      omega
    · exact le_max_left _ _

/-! ## Ranges of the operands -/

theorem numberIn_range {lo hi n m : Nat} (h : numberIn lo hi n = some m) : lo ≤ m ∧ m ≤ hi := by
  unfold numberIn at h
  split at h
  next hr =>
    cases h
    exact hr
  next => cases h

theorem inRange_of_linkConfigOf {f : LinkFields} {cfg : LinkConfig} (h : linkConfigOf f = some cfg) : cfg.InRange := by
  simp only [linkConfigOf, Option.bind_eq_bind, Option.bind_eq_some_iff] at h
  obtain ⟨_, -, _, -, _, -, _, limit, _, flush, _, ack, _, retry, _, silence, _, training, _, mark, _, hold, h⟩ := h
  obtain rfl := Option.some.inj h
  exact ⟨numberIn_range limit, numberIn_range flush, numberIn_range ack, numberIn_range retry, numberIn_range silence,
    numberIn_range training, numberIn_range mark, numberIn_range hold⟩

theorem inRange_of_partConfigOf {f : PartConfigFields} {cfg : PartConfig} (h : partConfigOf f = some cfg) :
    cfg.InRange := by
  unfold partConfigOf at h
  split at h
  next => cases h
  next hn =>
    push Not at hn
    obtain ⟨hid, hmask⟩ := hn
    simp only [Option.bind_eq_bind, Option.bind_eq_some_iff] at h
    obtain ⟨_, hold, _, apply, _, sweep, h⟩ := h
    obtain rfl := Option.some.inj h
    have id_ne : f.nodeId.toNat ≠ 255 := fun e => hid (BitVec.eq_of_toNat_eq e)
    have id_lt := f.nodeId.isLt
    exact ⟨by dsimp only; omega, numberIn_range hold, numberIn_range apply, numberIn_range sweep, by simpa using hmask⟩

end Sys2Proof.Machine
end

section
/-! SUPPORT. Every operation of the model is a run of changes, operation by operation in the order of the model's files. -/

namespace Sys2Proof.Machine

namespace State.Moves

variable {s₀ s : State} (hs : s₀.Moves s)
include hs

/-! ## Single changes -/

theorem move {t : State} (h : s.Move t) : s₀.Moves t := hs.tail h

theorem outside {t : State} (h : t = { s with
    pending := t.pending, host := t.host, applyPointer := t.applyPointer, sweepPointer := t.sweepPointer,
    intn := t.intn, response := t.response, spi := t.spi }) : s₀.Moves t := hs.move (.outside t h)

theorem modLink {l : LinkId} {f : Link → Link} (h : (s.link l).Evolves (f (s.link l))) : s₀.Moves (s.modLink l f) :=
  hs.move (.link l f h)

/-- A change of a link that the laws do not speak of. -/
theorem quiet {l : LinkId} {f : Link → Link} (h : (f (s.link l)).footprint = (s.link l).footprint) :
    s₀.Moves (s.modLink l f) := hs.modLink (.of_footprint h)

theorem raise (e : Event) : s₀.Moves (s.raise e) := by
  rw [State.raise_eq]
  exact hs.move (.events _ _ (s.raise_length_le e))

theorem dropEvents (o : Bool) {es : List Event} (h : es.length ≤ s.events.length) :
    s₀.Moves { s with events := es, overflow := o } := hs.move (.events _ _ (le_max_of_le_left h))

theorem offered (es : List Event) : s₀.Moves (s.offered es) := by
  induction es generalizing s with
  | nil => exact hs
  | cons e es ih => exact ih (hs.raise e)

theorem withImport (i : Index) (m : ImportState) : s₀.Moves (s.modWindow i (·.withImport m)) :=
  hs.move (.entry i _ fun _ => ⟨rfl, rfl, rfl⟩)

theorem withNotice (i : Index) (b : Bool) : s₀.Moves (s.modWindow i fun w => { w with notice := b }) :=
  hs.move (.entry i _ fun _ => ⟨rfl, rfl, rfl⟩)

/-! ## Notices, sides and sweeps -/

theorem setFlushDue (l : LinkId) : s₀.Moves (s.setFlushDue l) := hs.modLink (Link.evolves_flushDue _)

theorem setNotice (i : Index) : s₀.Moves (s.setNotice i) := by
  unfold State.setNotice
  split
  · split
    · exact (hs.withNotice i true).setFlushDue _
    · exact hs
  · exact hs

/-- A change of a link that keeps its sweep engine, and the abort of the active sweep: one change, with its event and its
notice (R113). -/
theorem abortSweepAfter {l : LinkId} {f : Link → Link} {c : Cause} (hc : c ≠ .windowCleared)
    (hfit : (s.link l).Fits (f (s.link l))) (hph : (f (s.link l)).placeholders ≤ (s.link l).placeholders)
    (hsweep : (f (s.link l)).sweep = (s.link l).sweep) : s₀.Moves ((s.modLink l f).abortSweep l c) := by
  unfold State.abortSweep
  rw [State.modLink_link, hsweep]
  split
  next ha => exact hs.modLink { hfit with
      placeholders := hph, read := by rw [hsweep], window := by rw [hsweep], up := fun _ => .inr ha }
  next sw ha =>
    rw [if_neg hc, State.modLink_modLink]
    have ended : s₀.Moves ((s.modLink l fun k => (f k).stopSweep).modWindow sw.window (·.withExport .stale)) := by
      refine hs.move (.endSweep l (fun k => (f k).stopSweep) sw .stale (by decide) ha { hfit with } hph rfl ?_)
      simp only [Link.stopSweep, hsweep]
      split
      next hr => simp [hr]
      next => rfl
    dsimp only
    split
    · exact (ended.raise _).setNotice _
    · exact ended.raise _

theorem abortSweep (l : LinkId) {c : Cause} (hc : c ≠ .windowCleared) : s₀.Moves (s.abortSweep l c) := by
  rw [← State.modLink_id s l]
  exact hs.abortSweepAfter hc (Link.evolves_refl _).toFits le_rfl rfl

theorem localStale (i : Index) {c : Cause} (hc : c ≠ .windowCleared) : s₀.Moves (s.localStale i c) := by
  unfold State.localStale
  split
  · exact hs
  next w hw =>
    split
    next hx =>
      have stale := (hs.move (.exportStale i w hw hx)).raise (.windowStale i .exportSide c)
      dsimp only
      split
      · exact State.Moves.setNotice stale i
      · exact stale
    · exact hs.abortSweep _ hc
    · exact hs
    · exact hs

theorem importStale (i : Index) (c : Cause) : s₀.Moves (s.importStale i c) := by
  unfold State.importStale
  split
  · exact hs
  · split
    · exact (hs.withImport _ _).raise _
    · exact (hs.withImport _ _).raise _
    · exact hs
    · exact hs

theorem applyControl (l : LinkId) (r : Record) : s₀.Moves (s.applyControl l r) := by
  unfold State.applyControl
  split
  · exact hs
  · split
    · exact hs.withImport _ _
    · split
      · exact (hs.withImport _ _).raise _
      · exact hs
    · exact hs.importStale _ _
    · exact hs

/-! ## Capture and frame build -/

theorem noteCapture {l : LinkId} {w : Window} {o : Offset} (h : (s.link l).pendingRoom w o = true) :
    s₀.Moves (s.noteCapture l w o) := hs.modLink (Link.evolves_noted h)

theorem captureWrite {w : Window} {o : Offset} (h : (s.link w.link).roomForWrite w o = true) (m : LaneMask) (d : Word) :
    s₀.Moves (s.captureWrite w o m d) := by
  simp only [Link.roomForWrite, Bool.and_eq_true] at h
  obtain ⟨slot, pending⟩ := h
  refine (hs.modLink (Link.evolves_captureWrite slot m d)).noteCapture ?_
  rw [State.modLink_link]
  split
  · exact pending
  · exact pending

theorem removePlaceholder (l : LinkId) : s₀.Moves (s.removePlaceholder l) :=
  hs.modLink (Link.evolves_dropPlaceholder _)

theorem buildFrame {l : LinkId} (h : s.buildReady l = true) (n : Nat) : s₀.Moves (s.buildFrame l n) := by
  simp only [State.buildReady, Bool.and_eq_true, decide_eq_true_eq] at h
  obtain ⟨⟨⟨⟨⟨carrying, -⟩, limit⟩, -⟩, -⟩, -⟩ := h
  have cleared : ∀ (is : List Index) (u : State), s₀.Moves u →
      s₀.Moves (is.foldl (fun u i => u.modWindow i fun w => { w with notice := false }) u) ∧
      (is.foldl (fun u i => u.modWindow i fun w => { w with notice := false }) u).link l = u.link l := by
    intro is
    induction is with
    | nil => exact fun u hu => ⟨hu, rfl⟩
    | cons i is ih =>
      intro u hu
      obtain ⟨moves, link⟩ := ih _ (hu.withNotice i false)
      exact ⟨moves, link.trans (State.modWindow_link _ _ _ _)⟩
  unfold State.buildFrame
  dsimp only
  obtain ⟨moves, link⟩ := cleared ((s.noticeWindows l).take n) s hs
  refine moves.modLink ?_
  rw [link]
  exact { (s.link l).evolves_refl with
    capture := le_max_of_le_left (List.drop_sublist _ _).length_le
    pending := le_max_of_le_left (by simp [ConflictUnit.build])
    inFlight := le_max_of_le_right (by simpa using limit)
    emptyList := fun _ idle => by simp [carrying] at idle
    placeholders := ((List.drop_sublist _ _).filter _).length_le }

theorem frameBuild (l : LinkId) : s₀.Moves (s.frameBuild l) := by
  unfold State.frameBuild
  split
  · split
    next h => exact hs.buildFrame h _
    next => exact hs
  · exact hs

/-! ## The host port -/

theorem claimHost (h : Handling) : s₀.Moves (s.claimHost h) := hs.outside rfl

theorem completeHost (fault : Bool) (data : Option Word) : s₀.Moves (s.completeHost fault data) := hs.outside rfl

theorem roomTest : s₀.Moves s.roomTest := hs.outside (by rw [State.roomTest_eq])

theorem exportWrite (i : Index) (w : Window) : s₀.Moves (s.exportWrite i w) := by
  have writable : s₀.Moves (match s.linkState w.link with
      | .hunting | .training | .up => s.claimHost .capturing
      | .draining => (s.claimHost .plain).localStale i .linkDraining
      | .disabled | .fault => (s.claimHost .plain).localStale i .linkDown) := by
    cases s.linkState w.link
    case draining => exact (hs.claimHost _).localStale i (by decide)
    case disabled | fault => exact (hs.claimHost _).localStale i (by decide)
    case hunting | training | up => exact hs.claimHost _
  unfold State.exportWrite
  rcases w.exportSide with _ | _ | _ | _
  · exact hs.claimHost _
  · exact writable
  · exact hs.claimHost _
  · exact writable

theorem proceedHost : s₀.Moves s.proceedHost := by
  unfold State.proceedHost
  split
  · split
    · split
      · exact hs.completeHost _ _
      · exact hs.completeHost _ _
      · exact hs.claimHost _
      · exact hs.claimHost _
    · exact hs.claimHost _
    · exact hs.claimHost _
    · exact hs.exportWrite _ _
    · exact hs.exportWrite _ _
  · exact hs.claimHost _

theorem waitDrain (w : Window) (o : Offset) : s₀.Moves (s.waitDrain w o) :=
  (hs.modLink (Link.evolves_markNewest _ _ _)).outside rfl

theorem arrive (acc : Access) : s₀.Moves (s.arrive acc) := by
  unfold State.arrive
  split
  · exact hs.completeHost _ _
  · split
    · exact hs.outside rfl
    · split
      · exact hs
      · dsimp only
        split
        · exact State.Moves.waitDrain (hs.outside rfl) _ _
        · exact State.Moves.proceedHost (hs.outside rfl)

theorem endDrain : s₀.Moves s.endDrain := by
  unfold State.endDrain
  split
  · exact hs.proceedHost
  · exact hs

theorem forgetWindow (i : Index) : s₀.Moves (s.forgetWindow i) := by
  rcases s.forgetWindow_eq i with h | h <;> rw [h]
  · exact hs.outside rfl
  · exact ((hs.modLink (Link.evolves_clearDrainPoint _)).modLink (Link.evolves_clearDrainPoint _)).outside rfl

theorem holdExpiry : s₀.Moves s.holdExpiry := by
  unfold State.holdExpiry
  split
  · exact (hs.claimHost _).localStale _ (by decide)
  · exact hs.claimHost _

/-! ## The apply queue -/

theorem offerHorizon (l : LinkId) (v : Seq) : s₀.Moves (s.offerHorizon l v) := by
  rw [State.offerHorizon_eq]
  exact hs.modLink (Link.evolves_horizonAfter _ _)

theorem offerHead (l : LinkId) : s₀.Moves (s.offerHead l) := by
  unfold State.offerHead
  split
  · exact hs.offerHorizon _ _
  · exact hs

theorem offerIdle (l : LinkId) (ack next : Seq) : s₀.Moves (s.offerIdle l ack next) := by
  unfold State.offerIdle
  dsimp only
  split
  · exact hs.offerHorizon _ _
  · exact hs

theorem offerFrame (l : LinkId) (seen : Seq) (items : List Record) : s₀.Moves (s.offerFrame l seen items) := by
  unfold State.offerFrame
  dsimp only
  split
  next room =>
    have taken := hs.modLink (l := l) (f := fun k => { k.takeRecords seen items with
        rx := { (k.takeRecords seen items).rx with
          receiveExpected := (k.takeRecords seen items).rx.receiveExpected + 1, nakSent := false } })
      { Link.evolves_takeRecords room seen with }
    split
    · exact taken.offerHead l
    · exact taken
  next => exact hs

theorem popApply (l : LinkId) : s₀.Moves (s.popApply l) := by
  have shorter := le_max_of_le_left (b := (s.link l).apply.queue.length) (c := Config.applyCapacity)
    (List.tail_sublist (s.link l).apply.queue).length_le
  exact ((hs.modLink (Link.evolves_evalHold _ _ .none shorter)).offerHead l).endDrain

theorem purgeApply (l : LinkId) (t : Tag) : s₀.Moves (s.purgeApply l t) := by
  rw [State.purgeApply_eq]
  exact (hs.modLink (Link.evolves_purged _ _)).endDrain

theorem discardHead (l : LinkId) (t : Tag) (e : Option Cause) : s₀.Moves (s.discardHead l t e) := by
  unfold State.discardHead
  cases e with
  | none => exact hs.popApply _
  | some c => exact (hs.raise _).popApply _

theorem decideControl (l : LinkId) : s₀.Moves (s.decideControl l) := by
  unfold State.decideControl
  split
  · exact (hs.applyControl _ _).popApply _
  · exact hs

/-! ## Grants -/

theorem countHostGrant : s₀.Moves s.countHostGrant := by
  unfold State.countHostGrant
  dsimp only
  exact State.Moves.quiet (State.Moves.quiet hs rfl) rfl

end State.Moves
end Sys2Proof.Machine
end

section
/-! SUPPORT. The memory port, link control, the transmitter and the receiver as runs of changes. -/

namespace Sys2Proof.Machine

/-- Counting a host grant changes patience counts alone (R150). -/
theorem State.countHostGrant_link (s : State) (l : LinkId) :
    ∃ p, s.countHostGrant.link l = { s.link l with patience := p } := by
  cases l <;> exact ⟨_, rfl⟩

theorem State.countHostGrant_port (s : State) : s.countHostGrant.port = s.port := by simp [State.countHostGrant]

/-- A capture that is made at the grant of an eligible host claim has room (R22, R148). -/
theorem State.roomForWrite_of_eligible {s : State} {i : Index} {w : Window} {o : Offset} (he : s.hostEligible = true)
    (hh : s.host.handling = some .capturing) (ht : s.hostTarget = some (i, w, o)) (hm : s.hostCaptureMade = true) :
    (s.link w.link).roomForWrite w o = true := by
  simp only [State.hostCaptureMade, ht] at hm
  simpa [State.hostEligible, hh, ht, hm] using he

/-- A sweep claim that is eligible has room for its placeholder (R22, R148). -/
theorem State.roomForRead_of_eligible {s : State} {l : LinkId} {i : Index} {w : Window} {o : Offset}
    (he : s.sweepEligible l = true) (hc : s.sweepClaim l = some (i, w, o)) : (s.link l).roomForRead w o = true := by
  simpa [State.sweepEligible, hc] using he

theorem pick_claims {p l : LinkId} {claims : LinkId → Bool} (h : pick p claims = some l) : claims l = true := by
  unfold pick at h
  split_ifs at h with h1 h2 <;> cases h
  · exact h1
  · exact h2

theorem State.choose_cases {s : State} {c : Choice} (h : s.choose = some c) :
    s.urgentChoice = some c ∨ s.patientChoice = some c ∨ s.hostChoice = some c ∨ s.remainingChoice = some c := by
  simp only [State.choose, Option.or_eq_some_iff] at h
  tauto

/-- A sweep claim that is chosen is eligible (R149). -/
theorem State.sweepEligible_of_choose {s : State} {l : LinkId} (h : s.choose = some (.sweep l)) :
    s.sweepEligible l = true := by
  rcases State.choose_cases h with h | h | h | h
  · simp [State.urgentChoice] at h
  · simp only [State.patientChoice, Option.or_eq_some_iff, Option.map_eq_some_iff, reduceCtorEq, and_false,
      exists_false, false_or, Choice.sweep.injEq, exists_eq_right] at h
    have claim := pick_claims h.2
    rw [Bool.and_eq_true] at claim
    exact claim.1
  · simp [State.hostChoice] at h
  · simp only [State.remainingChoice, Option.or_eq_some_iff, Option.map_eq_some_iff, reduceCtorEq, and_false,
      exists_false, false_or, Choice.sweep.injEq, exists_eq_right] at h
    exact pick_claims h.2

/-- The host claim is chosen only where it is eligible (R149). -/
theorem State.hostEligible_of_choose {s : State} (h : s.choose = some .host) : s.hostEligible = true := by
  rcases State.choose_cases h with h | h | h | h
  · simp [State.urgentChoice] at h
  · simp [State.patientChoice] at h
  · simp only [State.hostChoice, Option.ite_none_right_eq_some] at h
    exact h.1.2
  · simp [State.remainingChoice] at h

/-- The link after the grant of a sweep read: its placeholder queued, its word noted, and the read current (R93, R110). -/
def Link.readGranted (w : Window) (o : Offset) (k : Link) : Link :=
  let k := (k.enqueue (.placeholder w.tag o)).noted w o
  { k with sweep := { k.sweep with read := .current }, patience := { k.patience with sweep := 0 } }

/-- The link with its sweep read completed (R147). -/
def Link.readDone (k : Link) : Link := { k with sweep := { k.sweep with read := .none } }

theorem Link.dropPlaceholder_sweep (k : Link) : k.dropPlaceholder.sweep = k.sweep := by
  unfold Link.dropPlaceholder
  split <;> rfl

theorem Link.dropPlaceholder_control (k : Link) : k.dropPlaceholder.control = k.control := by
  unfold Link.dropPlaceholder
  split <;> rfl

theorem Link.noted_eq (k : Link) (w : Window) (o : Offset) :
    k.noted w o = { k with conflict := (k.noted w o).conflict } := by
  unfold Link.noted
  split <;> rfl

theorem Link.readGranted_eq (k : Link) (w : Window) (o : Offset) : k.readGranted w o =
    { k.enqueue (.placeholder w.tag o) with
      conflict := ((k.enqueue (.placeholder w.tag o)).noted w o).conflict
      sweep := { k.sweep with read := .current }
      patience := { k.patience with sweep := 0 } } := by
  unfold Link.readGranted
  rw [Link.noted_eq]
  rfl

theorem Link.fits_readGranted {k : Link} {w : Window} {o : Offset} (h : k.roomForRead w o = true) :
    k.Fits (k.readGranted w o) := by
  simp only [Link.roomForRead, Bool.and_eq_true] at h
  obtain ⟨slot, pending⟩ := h
  have noted : (k.enqueue (.placeholder w.tag o)).Evolves ((k.enqueue (.placeholder w.tag o)).noted w o) :=
    Link.evolves_noted pending
  rw [Link.readGranted_eq]
  exact { Link.fits_enqueue slot _ with pending := noted.pending }

theorem Link.placeholders_readGranted (k : Link) (w : Window) (o : Offset) :
    (k.readGranted w o).placeholders = k.placeholders + 1 := by
  rw [Link.readGranted_eq]
  exact k.placeholders_enqueue _

namespace State.Moves

variable {s₀ s : State} (hs : s₀.Moves s)
include hs

/-! ## Grants -/

theorem grantHost (hport : s.port = none) (he : s.hostEligible = true) : s₀.Moves s.grantHost := by
  unfold State.grantHost
  split
  · exact hs
  next acc _ =>
    dsimp only
    have granted : s₀.Moves { s.countHostGrant with
        port := some { owner := .host, kind := acc.kind, addr := acc.addr, mask := acc.mask }
        host := { s.host with
          phase := .inMemory, captured := decide (s.host.handling = some .capturing) && s.hostCaptureMade,
          holdTimer := .stopped } } :=
      State.Moves.outside (hs.countHostGrant.move (.grantPort
        { owner := .host, kind := acc.kind, addr := acc.addr, mask := acc.mask }
        (s.countHostGrant_port.trans hport) nofun)) rfl
    split
    next d i w o hm _ ht =>
      simp only [Bool.and_eq_true, decide_eq_true_eq] at hm
      obtain ⟨p, hp⟩ := s.countHostGrant_link w.link
      refine State.Moves.captureWrite granted ?_ acc.mask d
      have room := State.roomForWrite_of_eligible he hm.1 ht hm.2
      have link : ∀ (x : Option PortTransaction) (y : HostPort),
          ({ s.countHostGrant with port := x, host := y } : State).link w.link = s.countHostGrant.link w.link :=
        fun x y => by cases w.link <;> rfl
      rw [link, hp]
      exact room
    next => exact granted

theorem grantSweep {l : LinkId} (hrun : s.inReset = false) (hport : s.port = none) (he : s.sweepEligible l = true) :
    s₀.Moves (s.grantSweep l) := by
  unfold State.grantSweep
  split
  · exact hs
  next i w o hc =>
    have granted := hs.move (.grantRead l (Link.readGranted w o)
      { owner := .sweep l, kind := .read, addr := w.addrOf o, mask := 15 } hrun hport rfl
      (Link.fits_readGranted (State.roomForRead_of_eligible he hc)) (Link.placeholders_readGranted _ w o).le rfl
      (by rw [Link.readGranted_eq]) (by rw [Link.readGranted_eq]; rfl))
    refine State.Moves.outside granted ?_
    simp only [State.capturePlaceholder, State.noteCapture, State.modLink_modLink]
    rfl

theorem grantApply {l : LinkId} (hport : s.port = none) (i : Index) (addr : WordAddr) (m : LaneMask) (d : Word) :
    s₀.Moves (s.grantApply l i addr m d) :=
  State.Moves.outside ((hs.modLink (l := l) (f := fun k =>
    { k with apply := { k.apply with outstanding := .forWindow i }, patience := { k.patience with apply := 0 } }) (.of_footprint rfl)).move
    (.grantPort { owner := .apply l, kind := .write d, addr, mask := m } ((State.modLink_port _ _ _).trans hport) nofun))
    rfl

omit hs in
theorem arbitrate (h₀ : s₀.inReset = false) (fuel : Nat) : ∀ {s : State}, s₀.Moves s → s₀.Moves (s.arbitrate fuel) := by
  induction fuel with
  | zero => exact fun hs => hs
  | succ fuel ih =>
    intro s hs
    unfold State.arbitrate
    split
    · exact hs
    next busy =>
      have hport : s.port = none := by simpa using busy
      split
      · exact hs
      next hc => exact hs.grantHost hport (State.hostEligible_of_choose hc)
      next l hc => exact hs.grantSweep (hs.inReset.trans h₀) hport (State.sweepEligible_of_choose hc)
      · split
        · split
          · exact hs.grantApply hport _ _ _ _
          · exact ih (hs.discardHead _ _ _).roomTest
        · exact hs

theorem arbiterChoice (h₀ : s₀.inReset = false) : s₀.Moves s.arbiterChoice := State.Moves.arbitrate h₀ _ hs

/-! ## Completions -/

theorem completeHostAccess (kind : AccessKind) (status : MemStatus) : s₀.Moves (s.completeHostAccess kind status) := by
  unfold State.completeHostAccess
  cases status with
  | ok d => exact hs.completeHost _ _
  | fault =>
    dsimp only
    split
    · exact (hs.completeHost _ _).localStale _ (by decide)
    · exact hs.completeHost _ _

theorem completeApply (l : LinkId) (status : MemStatus) : s₀.Moves (s.completeApply l status) := by
  unfold State.completeApply
  split
  · exact hs
  · exact hs.popApply _
  · cases status with
    | ok d => exact hs.popApply _
    | fault => exact (hs.popApply _).importStale _ _

/-- A sweep read leaves the port with its completion: its placeholder goes or is filled in the same change. -/
theorem completeSweep {l : LinkId} {p : PortTransaction} (hport : s.port = some p) (hp : p.owner = .sweep l)
    (status : MemStatus) : s₀.Moves (({ s with port := none } : State).completeSweep l status) := by
  have unread : (s.link l).sweep.read = .none → s₀.Moves (({ s with port := none } : State).modLink l Link.readDone) := fun hr =>
    hs.move (.endRead l _ p hport hp (Link.fits_sweep _ _) le_rfl (fun h => absurd hr h) rfl rfl rfl)
  have removed : s₀.Moves ((({ s with port := none } : State).modLink l Link.readDone).removePlaceholder l) := by
    rw [State.removePlaceholder_eq, State.modLink_modLink]
    have gone := (s.link l).readDone.placeholders_dropPlaceholder
    have dropped := (s.link l).readDone.evolves_dropPlaceholder
    refine hs.move (.endRead l _ p hport hp { dropped.toFits with } dropped.placeholders
      (fun _ => gone.le.trans (Nat.zero_le _)) dropped.read ?_ ?_)
    · rw [Link.dropPlaceholder_sweep]
      rfl
    · rw [Link.dropPlaceholder_control]
      rfl
  have filled : ∀ coalesce d, s₀.Moves ((({ s with port := none } : State).modLink l Link.readDone).fillRead l coalesce d) := by
    intro coalesce d
    rw [State.fillRead, State.modLink_modLink]
    exact hs.move (.endRead l _ p hport hp
      { (s.link l).evolves_refl.toFits with capture := le_max_of_le_left (fillPlaceholder_length_le _ _ _) }
      ((fillPlaceholder_placeholders _ _ _).le.trans (Nat.sub_le _ _))
      (fun _ => (fillPlaceholder_placeholders _ _ _).le) rfl rfl rfl)
  unfold State.completeSweep
  dsimp only
  rw [State.modLink_link, State.withPort_link]
  split
  next hr => exact unread hr
  next => exact removed
  next => exact removed
  next sw _ hactive =>
    split
    · unfold State.sweepReadOk
      refine State.Moves.modLink (filled _ _) ?_
      have active : (s.link l).sweep.active = some sw := hactive
      refine Link.evolves_sweep (sw := sw) ?_ ?_
      · simpa [State.fillRead, Link.readDone] using active
      · split <;> rfl
    next => exact removed
    next => exact removed.abortSweep _ (by decide)

/-- The outstanding transaction ends, and the arbiter chooses again (R147, R149). -/
theorem complete (h₀ : s₀.inReset = false) {p : PortTransaction} (hport : s.port = some p) (status : MemStatus) :
    s₀.Moves (s.complete p status) := by
  have owned : s₀.Moves (({ s with port := none } : State).completeOwner p status) := by
    unfold State.completeOwner
    split
    next ho => exact State.Moves.completeHostAccess (hs.move (.freePort p hport (by simp [ho]))) _ _
    next l ho => exact State.Moves.completeApply (hs.move (.freePort p hport (by simp [ho]))) _ _
    next l ho => exact hs.completeSweep hport ho status
    next ho => exact hs.move (.freePort p hport (by simp [ho]))
  exact owned.roomTest.arbiterChoice h₀

end State.Moves
end Sys2Proof.Machine
end

section
/-! SUPPORT. Link control, the transmitter, the receiver and the requests as runs of changes, and so every command and
every step. -/

namespace Sys2Proof.Machine

theorem State.setNotice_sweep (s : State) (i : Index) (l : LinkId) :
    ((s.setNotice i).link l).sweep = (s.link l).sweep := by
  unfold State.setNotice
  split
  next w _ =>
    split
    · by_cases hl : l = w.link
      · subst hl
        simp [State.setFlushDue]
      · simp [State.setFlushDue, State.modLink_link_ne _ hl]
    · rfl
  next => rfl

/-- No sweep is active on a link whose sweep has been aborted (R113). -/
theorem State.abortSweep_idle (s : State) (l : LinkId) (c : Cause) :
    ((s.abortSweep l c).link l).sweep.active = none := by
  unfold State.abortSweep
  split
  next h => exact h
  next => dsimp only; split_ifs <;> simp [State.setNotice_sweep]

/-- A marker is queued for the window of an active engine in its phase, into a free slot (R26). -/
theorem State.markerWindow_eq_some {s : State} {l : LinkId} {phase : SweepPhase} {i : Index} {w : Window}
    (h : s.markerWindow l phase = some (i, w)) :
    ∃ sw, (s.link l).sweep.active = some sw ∧ (s.link l).hasSlot = true ∧ sw.window = i := by
  unfold State.markerWindow at h
  split at h
  next sw ha =>
    simp only [Option.ite_none_right_eq_some, Option.map_eq_some_iff] at h
    obtain ⟨⟨-, slot⟩, _, -, h⟩ := h
    exact ⟨sw, ha, slot, congrArg Prod.fst h⟩
  next => cases h

theorem LinkState.carrying_of_not_running {x : LinkState} (h : ¬ x.running = true) : x.carrying = false := by
  revert h
  cases x <;> decide

namespace State.Moves

variable {s₀ s : State} (hs : s₀.Moves s)
include hs

/-! ## Links -/

theorem enterDown (l : LinkId) (r : Option FaultReason) : s₀.Moves (s.enterDown l r) := by
  have down := hs.abortSweepAfter (l := l) (f := (·.goDown r)) (c := .linkLeftUp) (by decide) (Link.fits_goDown _ r)
    (by rw [Link.goDown_eq]; exact Nat.zero_le _) (Link.goDown_sweep _ r)
  have stale := down.move (.linkStale l (State.abortSweep_idle _ _ _))
  unfold State.enterDown
  cases r with
  | none => exact State.Moves.raise stale _
  | some r => exact State.Moves.raise stale _

theorem faultLink (l : LinkId) (r : FaultReason) : s₀.Moves (s.faultLink l r) := by
  unfold State.faultLink
  split
  · exact hs.enterDown _ _
  · exact hs

theorem enterDraining (l : LinkId) : s₀.Moves (s.enterDraining l) :=
  hs.abortSweepAfter (by decide) (Link.fits_draining _) le_rfl rfl

theorem drainComplete (l : LinkId) : s₀.Moves (s.drainComplete l) := by
  unfold State.drainComplete
  dsimp only
  split
  · exact hs.enterDown _ _
  · exact hs

theorem enterUp (l : LinkId) (p : Peer) (hold : Bool) : s₀.Moves (s.enterUp l p hold) :=
  (hs.modLink (Link.evolves_enterUp _ _ _ _)).raise _

theorem enterUpLoop (l : LinkId) : s₀.Moves (s.enterUpLoop l) := by
  unfold State.enterUpLoop
  refine State.Moves.raise (hs.modLink ?_) _
  exact { (s.link l).evolves_refl with pending := by simp [Link.startUp], emptyList := fun _ => nofun, up := fun _ => .inl rfl }

theorem enterHunting {l : LinkId} (h : (s.linkState l).carrying = false) : s₀.Moves (s.enterHunting l) := by
  unfold State.enterHunting
  refine hs.modLink ?_
  exact { (s.link l).evolves_refl with
    emptyList := fun empty _ => empty h
    up := fun hu => by
      rw [State.linkState, hu] at h
      cases h }

theorem disableLink (l : LinkId) (force : Bool) : s₀.Moves (s.disableLink l force) := by
  unfold State.disableLink
  split
  · exact hs
  · exact hs.enterDown _ _
  · exact hs.enterDown _ _
  · split
    · exact (hs.enterDraining _).enterDown _ _
    · exact hs.enterDraining _
  · split
    · exact hs.enterDown _ _
    · exact hs
  · exact hs.enterDown _ _

/-! ## The transmitter -/

theorem driveIntn : s₀.Moves s.driveIntn := hs.outside rfl

theorem finish : s₀.Moves s.finish :=
  ((((hs.drainComplete .a).drainComplete .b).modLink (Link.evolves_loopStart _)).modLink
    (Link.evolves_loopStart _)).roomTest.driveIntn

theorem goBack (l : LinkId) : s₀.Moves (s.goBack l) := by
  have back := hs.modLink (l := l) (f := fun k => { k with tx := { k.tx with
      retransmit := k.tx.retransmit.map fun f => { f with sent := false }
      retryCount := k.tx.retryCount + 1
      ackTimer := .stopped } }) (Link.evolves_tx (by simp) (s.link l).control rfl)
  unfold State.goBack
  dsimp only
  split
  · exact back.faultLink _ _
  · exact back

theorem receiveIdle (l : LinkId) (ack : Seq) (hold : Bool) : s₀.Moves (s.receiveIdle l ack hold) := by
  rw [State.receiveIdle, ← State.modLink_modLink s l (·.acknowledge ack) (·.setPeerHold hold)]
  exact (hs.modLink (Link.evolves_acknowledge _ _)).modLink (Link.evolves_setPeerHold _ _)

theorem receiveNak (l : LinkId) (expected : Seq) : s₀.Moves (s.receiveNak l expected) := by
  have acked := hs.modLink (l := l) (f := (·.acknowledge expected)) (Link.evolves_acknowledge _ _)
  unfold State.receiveNak
  dsimp only
  split
  · exact acked.goBack _
  · exact acked

theorem loopDeliver (l : LinkId) (f : Frame) : s₀.Moves (s.loopDeliver l f) := by
  have ended := hs.modLink (l := l) (f := fun k => { k with tx := { k.tx with output := .rest } }) (.of_footprint rfl)
  unfold State.loopDeliver
  dsimp only
  split
  · exact (ended.modLink (Link.evolves_acknowledge _ _)).offerFrame _ _ _
  · exact ended.modLink (Link.evolves_tx (by simp) _ rfl)

theorem endFrame (l : LinkId) : s₀.Moves (s.endFrame l) := by
  unfold State.endFrame
  split
  · split
    · rw [← State.modLink_modLink s l (fun k => { k with tx := { k.tx with idleSent := false } }) Link.chooseSymbol]
      exact (hs.quiet rfl).modLink (Link.evolves_chooseSymbol _)
    · exact hs.loopDeliver _ _
  · exact hs
  · exact hs

/-! ## The receiver -/

theorem lineLoss (l : LinkId) : s₀.Moves (s.lineLoss l) := by
  have lost := hs.modLink (l := l) (f := fun k => Link.restartSilence { k with
      rx := { k.rx with alignment := .hunt, huntRun := 0, malformedRun := 0, assembly := none } }) (.of_footprint rfl)
  unfold State.lineLoss
  dsimp only
  split
  next ht =>
    refine lost.modLink ?_
    exact { Link.evolves_refl _ with
      emptyList := fun empty _ => empty (congrArg LinkState.carrying ht)
      up := fun hu => by cases ht.symm.trans hu }
  · exact lost.faultLink _ _
  · exact lost.faultLink _ _
  all_goals exact lost

theorem classifyFrame (l : LinkId) (seq seen : Seq) (items : List Record) :
    s₀.Moves (s.classifyFrame l seq seen items) := by
  unfold State.classifyFrame
  split
  · exact hs.offerFrame _ _ _
  · exact hs
  · exact hs.modLink (Link.evolves_requestNak _)

theorem receiveData (l : LinkId) (p : Payload) : s₀.Moves (s.receiveData l p) := by
  unfold State.receiveData
  split
  · exact hs
  · split
    · exact hs.quiet rfl
    · exact hs.modLink (Link.evolves_damage _)
    · exact State.Moves.classifyFrame (hs.quiet rfl) _ _ _ _

theorem symbolInTraining (l : LinkId) (sym : SymbolKind) : s₀.Moves (s.symbolInTraining l sym) := by
  unfold State.symbolInTraining
  split
  next id c y =>
    unfold State.helloInTraining
    split
    · exact hs.faultLink _ _
    · have recorded := hs.modLink (l := l) (f := fun k => { k with control := { k.control with
          peer := some { id, acceptance := if c then .sixteen else .eight } } }) (.of_footprint rfl)
      dsimp only
      split
      · exact recorded.enterUp _ _ _
      · exact recorded
  · unfold State.idleInTraining
    split
    · exact hs.enterUp _ _ _
    · exact hs
  all_goals exact hs

theorem symbolInUp (l : LinkId) (p : Payload) (sym : SymbolKind) : s₀.Moves (s.symbolInUp l p sym) := by
  have damaged := hs.modLink (l := l) (f := Link.damageAssembly) (Link.evolves_damageAssembly _)
  unfold State.symbolInUp
  cases sym with
  | hello id c seenYou =>
    dsimp only
    split
    · exact damaged
    · exact damaged.faultLink _ _
  | idle ack next hold => exact (damaged.receiveIdle _ _ _).offerIdle _ _ _
  | nak expected => exact damaged.receiveNak _ _
  | frameStart seq seen count =>
    dsimp only
    rw [← State.modLink_modLink s l Link.damageAssembly (·.beginFrame seq seen count p)]
    exact damaged.modLink (Link.evolves_beginFrame _ _ _ _ _)
  | data p => exact hs.receiveData _ _
  | malformed => exact hs

theorem alignedSymbol (l : LinkId) (p : Payload) (sym : SymbolKind) : s₀.Moves (s.alignedSymbol l p sym) := by
  unfold State.alignedSymbol
  split
  · exact hs.symbolInTraining _ _
  · exact hs.symbolInUp _ _ _
  · exact hs.symbolInUp _ _ _
  all_goals exact hs

theorem malformedSymbol (l : LinkId) : s₀.Moves (s.malformedSymbol l) := by
  have damaged := hs.modLink (l := l) (f := Link.damageAssembly) (Link.evolves_damageAssembly _)
  unfold State.malformedSymbol
  dsimp only
  split
  · exact damaged.lineLoss _
  · exact damaged.quiet rfl

theorem huntSymbol (l : LinkId) (p : Payload) (sym : SymbolKind) : s₀.Moves (s.huntSymbol l p sym) := by
  unfold State.huntSymbol
  split
  · split
    · exact (hs.modLink (Link.evolves_align _)).alignedSymbol _ _ _
    · exact hs.quiet rfl
  · exact hs.quiet rfl

theorem receiveSymbol (l : LinkId) (sym : Symbol) : s₀.Moves (s.receiveSymbol l sym) := by
  have heard : s₀.Moves (if decodeSymbol sym = .malformed then s else s.modLink l Link.restartSilence) := by
    split
    · exact hs
    · exact hs.quiet rfl
  unfold State.receiveSymbol
  dsimp only
  generalize (if decodeSymbol sym = .malformed then s else s.modLink l Link.restartSilence) = u at heard ⊢
  split
  · exact State.Moves.huntSymbol heard _ _ _
  · split
    · exact State.Moves.malformedSymbol heard _
    · exact State.Moves.alignedSymbol (State.Moves.quiet heard rfl) _ _ _

theorem silenceExpiry (l : LinkId) : s₀.Moves (s.silenceExpiry l) := by
  unfold State.silenceExpiry
  split
  · exact hs.quiet rfl
  · exact hs.lineLoss _

/-! ## Sweeps -/

theorem queueOpen (l : LinkId) : s₀.Moves (s.queueOpen l) := by
  unfold State.queueOpen
  split
  next i w h =>
    obtain ⟨sw, ha, slot, rfl⟩ := State.markerWindow_eq_some h
    refine hs.modLink ?_
    exact { Link.evolves_enqueue slot (.sweepOpen w.tag) with window := by simp [ha] }
  next => exact hs

theorem queueClose (l : LinkId) : s₀.Moves (s.queueClose l) := by
  unfold State.queueClose
  split
  next i w h =>
    obtain ⟨sw, ha, slot, rfl⟩ := State.markerWindow_eq_some h
    have queued := Link.evolves_enqueue slot (.sweepClose w.tag)
    exact State.Moves.raise (hs.move (.endSweep l (fun k =>
      { k.enqueue (.record (.sweepClose w.tag)) with sweep := { k.sweep with active := none } }) sw .inStep (by decide) ha
      { queued.toFits with } queued.placeholders rfl Iff.rfl)) _
  next => exact hs

theorem startSweep {i : Index} {w : Window} (hw : s.window i = some w) (hx : w.direction.hasExport = true)
    (hup : s.linkState w.link = .up) (hidle : (s.link w.link).sweep.active = none) : s₀.Moves (s.startSweep i w) :=
  State.Moves.outside (State.Moves.queueOpen (hs.move (.startSweep i w hw hx hup hidle)) w.link)
    (by rw [State.startSweep, State.holdBecomesCapturing_eq])

/-! ## Requests -/

theorem respond (code : Byte) (st : Status) (d : List Byte) : s₀.Moves (s.respond code st d) :=
  hs.outside (by rw [State.respond_eq])

theorem markTaken : s₀.Moves s.markTaken := hs.outside (by rw [State.markTaken_eq])

theorem respondOk (code : Byte) : s₀.Moves (s.respondOk code) := hs.respond _ _ _

theorem refuse (code : Byte) (r : Reason) : s₀.Moves (s.refuse code r) := hs.respond _ _ _

theorem partConfigSet (f : PartConfigFields) : s₀.Moves (s.partConfigSet f) := by
  unfold State.partConfigSet
  split
  · exact hs.refuse _ _
  next cfg h =>
    split
    · exact hs.refuse _ _
    · exact (State.Moves.respondOk (hs.move (.partConfig cfg (inRange_of_partConfigOf h))) _).driveIntn

theorem linkSet (link : Byte) (f : LinkFields) : s₀.Moves (s.linkSet link f) := by
  unfold State.linkSet
  split
  · exact hs.refuse _ _
  · split
    · exact hs.refuse _ _
    next hrun =>
      split
      · exact hs.refuse _ _
      next cfg h =>
        exact State.Moves.respondOk
          (hs.move (.configure _ cfg (Bool.eq_false_iff.2 hrun) (inRange_of_linkConfigOf h))) _

theorem linkEnable (link : Byte) : s₀.Moves (s.linkEnable link) := by
  unfold State.linkEnable
  split
  · exact hs.refuse _ _
  · split
    · exact hs.refuse _ _
    next hrun =>
      split
      · exact hs.refuse _ _
      · dsimp only
        split
        · exact ((hs.enterHunting (LinkState.carrying_of_not_running hrun)).respondOk _).finish
        · exact ((hs.enterUpLoop _).respondOk _).finish

theorem linkDisable (link force : Byte) : s₀.Moves (s.linkDisable link force) := by
  unfold State.linkDisable
  split
  · exact hs.refuse _ _
  · exact ((hs.disableLink _ _).respondOk _).finish

theorem linkGet (link : Byte) : s₀.Moves (s.linkGet link) := by
  unfold State.linkGet
  split
  · exact hs.refuse _ _
  · exact hs.respond _ _ _

theorem flush (link : Byte) : s₀.Moves (s.flush link) := by
  unfold State.flush
  split
  · exact hs.refuse _ _
  · split
    · exact (hs.setFlushDue _).respondOk _
    · exact hs.refuse _ _

theorem windowGet (index : Byte) : s₀.Moves (s.windowGet index) := by
  unfold State.windowGet
  split
  · exact hs.refuse _ _
  · exact hs.respond _ _ _

/-- The entry that WINDOW_SET makes has the sides of its direction, each IN_STEP or STALE (R6). -/
theorem windowSet (index : Byte) (f : WindowFields) : s₀.Moves (s.windowSet index f) := by
  unfold State.windowSet
  split
  · exact hs.refuse _ _
  · split
    · exact hs.refuse _ _
    next hon =>
      split
      · exact hs.refuse _ _
      next w hw =>
        split
        · exact hs.refuse _ _
        · split
          · exact hs.refuse _ _
          · refine State.Moves.respondOk (hs.move (.setEntry _ w (by simpa using hon) ?_ (windowOf_legal hw).exportSide)) _
            rw [(windowOf_makes hw).2.exportSide]
            split_ifs <;> decide

theorem clearWindow {i : Index} {w : Window} (hw : s.window i = some w) : s₀.Moves (s.clearWindow i w) := by
  have released : s₀.Moves (s.releaseWindow i w.link) := by
    unfold State.releaseWindow
    rw [State.offered_setWindow]
    exact (State.Moves.offered (hs.move (.clearEntry i w hw)) _).forgetWindow i
  have cleared := released.modLink (l := w.link) (f := fun k => { k with
      apply := { k.apply with outstanding := k.apply.outstanding.forget i }
      conflict := if w.isShared then k.conflict.dropTag w.tag else k.conflict }) (Link.evolves_cleared _ i w)
  unfold State.clearWindow
  dsimp only
  rw [State.abortSweep_cleared]
  split
  · exact cleared.purgeApply _ _
  · exact cleared

theorem windowClear (index : Byte) : s₀.Moves (s.windowClear index) := by
  unfold State.windowClear
  split
  · exact hs.refuse _ _
  · split
    · exact hs.respondOk _
    next hw => exact ((hs.clearWindow hw).respondOk _).finish

theorem sweepStart (index : Byte) : s₀.Moves (s.sweepStart index) := by
  unfold State.sweepStart
  split
  · exact hs.refuse _ _
  · split
    · exact hs.refuse _ _
    next hw =>
      split_ifs with hx hup hbusy hsweeping
      · exact hs.refuse _ _
      · exact hs.refuse _ _
      · exact hs.refuse _ _
      · exact hs.refuse _ _
      · exact ((hs.startSweep hw (by simpa using hx) (by simpa using hup) (by simpa using hbusy)).respondOk _).finish

theorem sweepAbort (index : Byte) : s₀.Moves (s.sweepAbort index) := by
  unfold State.sweepAbort
  split
  · exact hs.refuse _ _
  · split
    · exact hs.refuse _ _
    · split
      · exact ((hs.abortSweep _ (by decide)).respondOk _).finish
      · exact hs.refuse _ _

theorem eventPop : s₀.Moves s.eventPop := by
  unfold State.eventPop
  split
  · exact hs.respond _ _ _
  next e rest he =>
    have popped : s₀.Moves { s with events := rest } := hs.dropEvents s.overflow (by simp [he])
    exact (popped.respond _ _ _).driveIntn

theorem eventClear : s₀.Moves s.eventClear := by
  have emptied : s₀.Moves { s with events := [], overflow := false } := hs.dropEvents false (Nat.zero_le _)
  exact (emptied.respondOk 0x0F).driveIntn

theorem softResetHost : s₀.Moves s.softResetHost := hs.outside (by rw [State.softResetHost_eq])

theorem softReset : s₀.Moves s.softReset := by
  have blocks : s₀.Moves s.resetBlocks := by
    have hosted := State.Moves.softResetHost (hs.move .softReset)
    exact State.Moves.outside (hosted.dropEvents (es := []) false (Nat.zero_le _)) rfl
  exact (blocks.respondOk 0x10).driveIntn

theorem badCommand (code : Byte) : s₀.Moves (s.badCommand code) := by
  unfold State.badCommand
  split
  · exact hs.refuse _ _
  · exact hs

/-- Taking a request is a run of changes, whatever the request (R153, Table 12-4). -/
theorem request (c : Instr) : s₀.Moves (s.request c) := by
  cases c with
  | nop => exact hs.markTaken
  | partInfo | partConfigGet => exact hs.respond _ _ _
  | partConfigSet f => exact hs.partConfigSet _
  | windowSet index f => exact hs.windowSet _ _
  | windowClear index => exact hs.windowClear _
  | windowGet index => exact hs.windowGet _
  | linkSet link f => exact hs.linkSet _ _
  | linkEnable link => exact hs.linkEnable _
  | linkDisable link force => exact hs.linkDisable _ _
  | linkGet link => exact hs.linkGet _
  | flush link => exact hs.flush _
  | sweepStart index => exact hs.sweepStart _
  | sweepAbort index => exact hs.sweepAbort _
  | eventPop => exact hs.eventPop
  | eventClear => exact hs.eventClear
  | softReset => exact hs.softReset
  | badCommand code => exact hs.badCommand _
  | _ => exact hs

theorem endUntaken (clocked : List Byte) : s₀.Moves (s.endUntaken clocked) := by
  unfold State.endUntaken
  split
  · exact hs
  · split
    · split
      · exact hs.request _
      · exact hs
    · exact hs.outside rfl

theorem tick : s₀.Moves s.tick := by
  unfold State.tick
  split
  · exact hs
  · exact State.Moves.outside
      ((hs.modLink (l := .a) (Link.evolves_tick _)).modLink (l := .b) (Link.evolves_tick _)) rfl

end State.Moves

/-! ## Commands and steps -/

/-- The one-line cases of a command that is not hardware reset (R17, R152, R163). -/
inductive State.Result (s : State) : State → Prop
  /-- The command is a run of changes. -/
  | moves {t : State} (h : s.Moves t) : Result s t
  /-- Hardware reset: the reset state, an outstanding transaction owned by nobody. -/
  | hardwareReset (spi : SpiTransaction) : Result s { State.reset with
      pending := s.pending, inReset := true, port := s.port.map fun t => { t with owner := .nobody }, spi }
  /-- Hardware reset ends. -/
  | resetEnd : Result s { s with inReset := false }
  /-- A transaction ends while hardware reset lasts. -/
  | portFreed (h : s.inReset = true) : Result s { s with port := none }

theorem State.take_moves {s t : State} {act : State → State} (ha : s.Moves (act s)) (h : s.take act = .next t) :
    s.Result t := by
  cases h
  split
  · exact .moves ha
  · exact .moves s.moves_refl

theorem State.happening_moves {s t : State} {can : Bool} {act : State → State}
    (ha : s.inReset = false → can = true → s.Moves (act s)) (h : s.happening can act = .next t) : s.Result t := by
  cases h
  split
  next hc =>
    simp only [Bool.and_eq_true, Bool.not_eq_true'] at hc
    exact .moves (ha hc.1 hc.2).finish
  next => exact .moves s.moves_refl

/-- Every command is a run of changes, or belongs to hardware reset. -/
theorem exec_result {c : Instr} {s t : State} (h : exec c s = .next t) : s.Result t := by
  have start := s.moves_refl
  cases c with
  | transactionBegin =>
    cases h
    split
    · exact .moves (start.outside rfl)
    · exact .moves start
    · exact .moves start
  | transactionEnd clocked =>
    cases h
    split
    · exact .moves ((start.endUntaken clocked).outside rfl)
    all_goals exact .moves (start.outside rfl)
  | hardwareReset =>
    cases h
    exact .hardwareReset _
  | resetEnd =>
    cases h
    exact .resetEnd
  | memoryCompletion status =>
    simp only [exec, execMemoryCompletion] at h
    split at h
    · cases h
      exact .moves start
    next p hport =>
      cases h
      split
      next hr => exact .portFreed hr
      next hr => exact .moves (start.complete (Bool.eq_false_iff.2 hr) hport status).finish
  | hostAccessArrival acc =>
    simp only [exec, execHostAccessArrival] at h
    exact State.happening_moves (fun _ _ => start.arrive acc) h
  | arbiterChoice =>
    simp only [exec, execArbiterChoice] at h
    exact State.happening_moves (fun hr _ => start.arbiterChoice hr) h
  | controlRecordDecision l =>
    simp only [exec, execControlRecordDecision] at h
    exact State.happening_moves (fun _ _ => start.decideControl l) h
  | frameBuild l =>
    simp only [exec, execFrameBuild] at h
    exact State.happening_moves (fun _ _ => start.frameBuild l) h
  | sweepOpenQueued l =>
    simp only [exec, execSweepOpenQueued] at h
    exact State.happening_moves (fun _ _ => start.queueOpen l) h
  | sweepCloseQueued l =>
    simp only [exec, execSweepCloseQueued] at h
    exact State.happening_moves (fun _ _ => start.queueClose l) h
  | flushTimerExpiry l =>
    simp only [exec, execFlushTimerExpiry] at h
    exact State.happening_moves (fun _ _ => start.modLink (Link.evolves_flushExpiry _)) h
  | transmitChoicePoint l =>
    simp only [exec, execTransmitChoicePoint] at h
    exact State.happening_moves (fun _ _ => start.modLink (Link.evolves_choicePoint _ _)) h
  | frameEnd l =>
    simp only [exec, execFrameEnd] at h
    exact State.happening_moves (fun _ _ => start.endFrame l) h
  | ackTimerExpiry l =>
    simp only [exec, execAckTimerExpiry] at h
    exact State.happening_moves (fun _ _ => start.goBack l) h
  | peerHoldLimitExpiry l =>
    simp only [exec, execPeerHoldLimitExpiry] at h
    exact State.happening_moves (fun _ _ => start.faultLink l _) h
  | trainingTimerExpiry l =>
    simp only [exec, execTrainingTimerExpiry] at h
    exact State.happening_moves (fun _ _ => start.faultLink l _) h
  | symbolArrival l sym =>
    simp only [exec, execSymbolArrival] at h
    exact State.happening_moves (fun _ _ => start.receiveSymbol l sym) h
  | silenceTimerExpiry l =>
    simp only [exec, execSilenceTimerExpiry] at h
    exact State.happening_moves (fun _ _ => start.silenceExpiry l) h
  | captureHoldExpiry =>
    simp only [exec, execCaptureHoldExpiry] at h
    exact State.happening_moves (fun _ _ => start.holdExpiry) h
  | nop | partInfo | partConfigSet | partConfigGet | windowSet | windowClear | windowGet | linkSet | linkEnable
  | linkDisable | linkGet | flush | sweepStart | sweepAbort | eventPop | eventClear | softReset | badCommand =>
    rw [exec_of_request rfl] at h
    exact State.take_moves (start.request _) h

/-- A law that every change keeps, and hardware reset, is kept by every step. -/
theorem step_keeps {P : State → Prop} (changes : ∀ s t : State, s.Move t → P s → P t)
    (hardwareReset : ∀ (s : State) (spi : SpiTransaction), P { State.reset with
      pending := s.pending, inReset := true, port := s.port.map fun t => { t with owner := .nobody }, spi })
    (resetEnd : ∀ s : State, P s → P { s with inReset := false })
    (portFreed : ∀ s : State, s.inReset = true → P s → P { s with port := none })
    {s t : State} (hs : P s) (h : step s = .next t) : P t := by
  have runs : ∀ s t : State, s.Moves t → P s → P t := by
    intro s t h hs
    induction h with
    | refl => exact hs
    | tail _ m ih => exact changes _ _ m ih
  unfold step at h
  split at h
  next c rest _ =>
    have queued : P { s with pending := rest } := changes _ _ (.outside _ rfl) hs
    cases exec_result h with
    | moves run => exact runs _ _ run queued
    | hardwareReset spi => exact hardwareReset _ spi
    | resetEnd => exact resetEnd _ queued
    | portFreed lasting => exact portFreed _ lasting queued
  next =>
    cases h
    exact runs _ _ s.moves_refl.tick hs

end Sys2Proof.Machine
end

section
/-! SUPPORT. Capacities, configuration ranges and hold flags (R20, R43, R77, R79, R92, R119, R156, R158): every change keeps
them, and so does every step. -/

namespace Sys2Proof.Machine

/-! ## One link -/

/-- A link within its capacities, with a configuration in range and the hold flag its occupancy asks for. -/
structure Link.Sound (k : Link) : Prop where
  capacity : k.WithinCapacity
  config : k.config.InRange
  hold : k.HoldLaw

/-- The hold flag evaluated at an occupancy is the one the occupancy asks for (R79). -/
theorem Link.holdLaw_of_flagAt {k k' : Link} (hm : 1 ≤ k'.config.holdMark) (hc : k.config = k'.config)
    (h : k'.apply.holdFlag = k.flagAt k'.apply.queue.length) : k'.HoldLaw where
  set full := by rw [h, Link.flagAt, hc, if_pos full]
  clear low := by
    rw [h, Link.flagAt, hc, if_neg (by omega), if_pos low]
  mark := hm

theorem Link.Fits.sound {k k' : Link} (h : k.Fits k') (hk : k.Sound) : k'.Sound := by
  obtain ⟨⟨capture, apply, pending, inFlight, limit, emptyList⟩, config, hold⟩ := hk
  refine ⟨⟨?_, ?_, ?_, ?_, ?_, h.emptyList emptyList⟩, ?_, ?_⟩
  · exact h.capture.trans (max_le capture le_rfl)
  · exact h.apply.trans (max_le apply le_rfl)
  · exact h.pending.trans (max_le pending le_rfl)
  · rw [h.config]
    exact h.inFlight.trans (max_le inFlight le_rfl)
  · rwa [h.config]
  · rwa [h.config]
  · rcases h.hold with ⟨length, flag⟩ | flag
    · exact ⟨by rw [h.config, length, flag]; exact hold.set, by rw [h.config, length, flag]; exact hold.clear,
        by rw [h.config]; exact hold.mark⟩
    · exact Link.holdLaw_of_flagAt (by rw [h.config]; exact hold.mark) h.config.symm flag

/-- A new configuration, in range, on a link that does not run: its list is empty, and its hold flag is evaluated against
the new hold mark (R57, R119). -/
theorem Link.Sound.configure {k : Link} (hk : k.Sound) (hrun : k.control.state.running = false) {cfg : LinkConfig}
    (h : cfg.InRange) : (k.configure cfg).Sound := by
  have idle : k.control.state.carrying = false :=
    LinkState.carrying_of_not_running (by rw [hrun]; exact Bool.false_ne_true)
  have empty := hk.capacity.emptyList idle
  rw [Link.configure, Link.evalHold_eq]
  exact {
    capacity := ⟨hk.capacity.capture, hk.capacity.apply, hk.capacity.pending, by simp [empty], h.inFlightLimit.2,
      fun _ => empty⟩
    config := h
    hold := Link.holdLaw_of_flagAt (k := { k with config := cfg }) h.holdMark.1 rfl rfl }

theorem Link.Sound.reset {cfg : LinkConfig} (h : cfg.InRange) : (Link.reset cfg).Sound where
  capacity := ⟨Nat.zero_le _, Nat.zero_le _, Nat.zero_le _, Nat.zero_le _, h.inFlightLimit.2, fun _ => rfl⟩
  config := h
  hold := ⟨fun full => absurd (h.holdMark.1.trans full) (Nat.not_succ_le_zero 0), fun _ => rfl, h.holdMark.1⟩

/-! ## The part -/

/-- Both links are sound, the part configuration is in range and the event queue within its capacity. -/
structure State.Sound (s : State) : Prop where
  links : ∀ l, (s.link l).Sound
  part : s.config.InRange
  events : s.events.length ≤ Config.eventCapacity

theorem State.sound_iff (s : State) : s.Sound ↔ s.WithinCapacity ∧ s.ConfigLaw ∧ s.HoldLaw := by
  constructor
  · rintro ⟨links, part, events⟩
    have a := links .a
    have b := links .b
    exact ⟨⟨a.capacity, b.capacity, events⟩, ⟨part, a.config, b.config⟩, ⟨a.hold, b.hold⟩⟩
  · rintro ⟨capacity, config, hold⟩
    refine ⟨fun l => ?_, config.part, capacity.events⟩
    cases l
    · exact ⟨capacity.a, config.a, hold.a⟩
    · exact ⟨capacity.b, config.b, hold.b⟩

theorem State.withWindows_link (s : State) (v : Vector (Option Window) 16) (l : LinkId) :
    ({ s with windows := v } : State).link l = s.link l := by cases l <;> rfl

theorem State.modWindows_link (s : State) (f : Window → Window) (l : LinkId) : (s.modWindows f).link l = s.link l :=
  (congrArg (·.link l) (State.modWindows_eq f s)).trans (State.withWindows_link s _ l)

theorem State.modWindows_config (s : State) (f : Window → Window) : (s.modWindows f).config = s.config :=
  (congrArg (·.config) (State.modWindows_eq f s)).trans (by rfl)

theorem State.modWindows_events (s : State) (f : Window → Window) : (s.modWindows f).events = s.events :=
  (congrArg (·.events) (State.modWindows_eq f s)).trans (by rfl)

namespace State.Sound

variable {s t : State} (hs : s.Sound)
include hs

theorem congr (links : ∀ l, t.link l = s.link l) (config : t.config = s.config) (events : t.events = s.events) :
    t.Sound :=
  ⟨fun l => by rw [links]; exact hs.links l, by rw [config]; exact hs.part, by rw [events]; exact hs.events⟩

theorem modLink {l : LinkId} {f : Link → Link} (h : (f (s.link l)).Sound) : (s.modLink l f).Sound where
  links l' := by
    by_cases hl : l' = l
    · subst hl
      rwa [State.modLink_link]
    · rw [State.modLink_link_ne _ hl]
      exact hs.links l'
  part := by rw [State.modLink_config]; exact hs.part
  events := by rw [State.modLink_events]; exact hs.events

theorem withPort (p : Option PortTransaction) : ({ s with port := p } : State).Sound :=
  hs.congr (State.withPort_link s p) rfl rfl

theorem modWindows (f : Window → Window) : (s.modWindows f).Sound :=
  hs.congr (State.modWindows_link s f) (State.modWindows_config s f) (State.modWindows_events s f)

/-- A change of a link that fits keeps the link sound; every other change keeps the links, or gives one a new
configuration in range, or resets it. -/
theorem move (h : s.Move t) : t.Sound := by
  have fits : ∀ {l k}, (s.link l).Fits k → k.Sound := fun h => h.sound (hs.links _)
  cases h with
  | outside t h => exact hs.congr (fun l => by rw [h]; cases l <;> rfl) (by rw [h]) (by rw [h])
  | events es o h =>
    exact ⟨fun | .a => hs.links .a | .b => hs.links .b, hs.part, h.trans (max_le hs.events le_rfl)⟩
  | partConfig cfg h => exact ⟨fun | .a => hs.links .a | .b => hs.links .b, h, hs.events⟩
  | link l f h => exact hs.modLink (fits h.toFits)
  | configure l cfg hrun h => exact hs.modLink ((hs.links l).configure hrun h)
  | softReset =>
    have stale := hs.modWindows Window.allStale
    have first := stale.modLink (l := .a) (f := fun k => .reset k.config) (.reset (stale.links .a).config)
    exact first.modLink (.reset (first.links .b).config)
  | entry | exportStale | setEntry => exact hs.congr (fun l => by simp) rfl rfl
  | linkStale l h => exact hs.modWindows _
  | clearEntry i w hw => exact (hs.modLink (fits (Link.fits_sweep _ _))).congr (fun l => by simp) rfl rfl
  | startSweep i w hw hx hup hidle =>
    have entry : (s.modWindow i (·.withExport .sweeping)).Sound := hs.congr (fun l => by simp) rfl rfl
    exact entry.modLink ((Link.fits_sweep _ _).sound (entry.links w.link))
  | endSweep l f sw x hx hsw hfit => exact (hs.modLink (fits hfit)).congr (fun l => by simp) rfl rfl
  | grantRead l f p hrun hport hp hfit => exact (hs.modLink (fits hfit)).withPort _
  | endRead l f p hport hp hfit =>
    rw [State.modLink_withPort]
    exact (hs.modLink (fits hfit)).withPort _
  | grantPort | freePort => exact hs.withPort _

end State.Sound

/-- Settles O51: the machine is sound after every change, and after hardware reset. -/
theorem stepKeepsCapacities : Obligations.StepKeepsCapacities := by
  intro s t capacity config hold h
  rw [← and_assoc, and_assoc, ← State.sound_iff]
  have hs : s.Sound := s.sound_iff.2 ⟨capacity, config, hold⟩
  have reset : State.reset.Sound := by
    obtain ⟨capacity, config, hold, -⟩ := lawsHoldAtReset
    exact State.reset.sound_iff.2 ⟨capacity, config, hold⟩
  exact step_keeps (fun _ _ m hs => hs.move m) (fun _ _ => reset.congr (fun l => by cases l <;> rfl) rfl rfl)
    (fun _ hs => hs.congr (fun l => by cases l <;> rfl) rfl rfl) (fun _ _ hs => hs.withPort _) hs h

end Sys2Proof.Machine
end

section
/-! SUPPORT. Sweeps and placeholders (R19, R106, R107, R113): every change keeps the two laws, and so does every step. -/

namespace Sys2Proof.Machine

/-- Each link after a change of one of them: the one changed, and the others as they were. -/
theorem State.modLink_forall {s : State} {l : LinkId} {f : Link → Link} {P : LinkId → Link → Prop}
    (changed : P l (f (s.link l))) (others : ∀ l', l' ≠ l → P l' (s.link l')) (l' : LinkId) :
    P l' ((s.modLink l f).link l') := by
  by_cases hl : l' = l
  · subst hl
    rwa [State.modLink_link]
  · rw [State.modLink_link_ne _ hl]
    exact others l' hl

/-! ## Placeholders -/

theorem Link.any_isPlaceholder_iff (k : Link) :
    k.capture.queue.any CaptureEntry.isPlaceholder = true ↔ 0 < k.placeholders := by
  simp [Link.placeholders, List.length_pos_iff, List.filter_eq_nil_iff]

theorem Link.stopSweepOf_unread (k : Link) (i : Index) :
    (k.stopSweepOf i).sweep.read = .none ↔ k.sweep.read = .none := by
  unfold Link.stopSweepOf
  dsimp only
  split
  · cases k.sweep.read <;> simp
  · rfl

theorem State.placeholderLaw_of_unread {t : State}
    (h : ∀ l, (t.link l).placeholders = 0 ∧ (t.link l).sweep.read = .none) : t.PlaceholderLaw where
  atMostOne l := (h l).1.le.trans (Nat.zero_le 1)
  outstanding l hp := by
    rw [Link.any_isPlaceholder_iff, (h l).1] at hp
    exact absurd hp (Nat.lt_irrefl 0)
  atPort l hr := absurd (h l).2 hr
  inReset _ l := (h l).2

namespace State.PlaceholderLaw

variable {s t : State} (hs : s.PlaceholderLaw)
include hs

/-- A link without a read outstanding holds no placeholder (R19). -/
theorem placeholders_of_unread {l : LinkId} (h : (s.link l).sweep.read = .none) : (s.link l).placeholders = 0 := by
  by_contra hp
  exact hs.outstanding l ((s.link l).any_isPlaceholder_iff.2 (Nat.pos_of_ne_zero hp)) h

/-- No sweep read is outstanding while the port is free or another transaction has it. -/
theorem unread_of_port {l : LinkId} (h : s.port.map PortTransaction.owner ≠ some (.sweep l)) :
    (s.link l).sweep.read = .none := by
  by_contra hr
  exact h (hs.atPort l hr)

theorem unread_of_free (h : s.port = none) (l : LinkId) : (s.link l).sweep.read = .none :=
  hs.unread_of_port (by simp [h])

theorem of_le (links : ∀ l, (t.link l).placeholders ≤ (s.link l).placeholders ∧
      ((t.link l).sweep.read = .none ↔ (s.link l).sweep.read = .none))
    (port : ∀ l, (s.link l).sweep.read ≠ .none → t.port.map PortTransaction.owner = s.port.map PortTransaction.owner)
    (reset : t.inReset = true → s.inReset = true) : t.PlaceholderLaw where
  atMostOne l := (links l).1.trans (hs.atMostOne l)
  outstanding l hp hr := by
    have none_left := hs.placeholders_of_unread ((links l).2.1 hr)
    rw [Link.any_isPlaceholder_iff] at hp
    have := (links l).1
    omega
  atPort l hr := by
    have hr : (s.link l).sweep.read ≠ .none := fun h => hr ((links l).2.2 h)
    rw [port l hr]
    exact hs.atPort l hr
  inReset h l := (links l).2.2 (hs.inReset (reset h) l)

theorem congr (links : ∀ l, t.link l = s.link l) (port : t.port = s.port) (reset : t.inReset = true → s.inReset = true) :
    t.PlaceholderLaw :=
  hs.of_le (fun l => by rw [links]; exact ⟨le_rfl, Iff.rfl⟩) (fun _ _ => by rw [port]) reset

/-- A change of a link that adds no placeholder and neither begins nor ends a read. -/
theorem modLink {l : LinkId} {f : Link → Link} (hph : (f (s.link l)).placeholders ≤ (s.link l).placeholders)
    (hr : (f (s.link l)).sweep.read = .none ↔ (s.link l).sweep.read = .none) : (s.modLink l f).PlaceholderLaw :=
  hs.of_le
    (State.modLink_forall (P := fun l' k => k.placeholders ≤ (s.link l').placeholders ∧
        (k.sweep.read = .none ↔ (s.link l').sweep.read = .none))
      ⟨hph, hr⟩ fun _ _ => ⟨le_rfl, Iff.rfl⟩)
    (fun _ _ => by rw [State.modLink_port]) (fun h => by rwa [State.modLink_inReset] at h)

/-- Every change keeps the law of placeholders: only the grant of a read to the free port adds one, and it leaves with the
read. -/
theorem move (h : s.Move t) : t.PlaceholderLaw := by
  cases h with
  | outside t h => exact hs.congr (fun l => by rw [h]; cases l <;> rfl) (by rw [h]) (by rw [h]; exact fun h => h)
  | events | partConfig => exact hs.congr (fun l => by cases l <;> rfl) rfl fun h => h
  | link l f h => exact hs.modLink h.placeholders (by rw [h.read])
  | configure l cfg hrun h =>
    exact hs.modLink (by rw [Link.configure, Link.evalHold_eq]; exact le_rfl)
      (by rw [Link.configure, Link.evalHold_eq])
  | softReset =>
    refine State.placeholderLaw_of_unread fun l => ?_
    cases l <;> exact ⟨rfl, rfl⟩
  | entry | exportStale | setEntry => exact hs.congr (fun l => by simp) rfl fun h => h
  | linkStale l h =>
    exact hs.congr (State.modWindows_link s _) (by rw [State.modWindows_eq]) (by rw [State.modWindows_eq]; exact fun h => h)
  | clearEntry i w hw =>
    have stopped : (s.modLink w.link (·.stopSweepOf i)).PlaceholderLaw :=
      hs.modLink le_rfl (Link.stopSweepOf_unread _ i)
    exact stopped.congr (fun l => by simp) rfl fun h => h
  | startSweep i w =>
    have entry : (s.modWindow i (·.withExport .sweeping)).PlaceholderLaw := hs.congr (fun l => by simp) rfl fun h => h
    exact entry.modLink le_rfl Iff.rfl
  | endSweep l f sw x hx hsw hfit hph hidle hread =>
    exact (hs.modLink hph hread).congr (fun l => by simp) rfl fun h => h
  | grantRead l f p hrun hport hp hfit hph hread =>
    have unread := hs.unread_of_free hport
    have empty := fun l => hs.placeholders_of_unread (unread l)
    have links : ∀ l', ((s.modLink l f).link l').placeholders ≤ 1 ∧
        (0 < ((s.modLink l f).link l').placeholders → ((s.modLink l f).link l').sweep.read ≠ .none) ∧
        (((s.modLink l f).link l').sweep.read ≠ .none → l' = l) :=
      State.modLink_forall (P := fun l' k =>
          k.placeholders ≤ 1 ∧ (0 < k.placeholders → k.sweep.read ≠ .none) ∧ (k.sweep.read ≠ .none → l' = l))
        ⟨by rwa [empty l] at hph, fun _ => by simp [hread], fun _ => rfl⟩
        fun l' _ => ⟨by simp [empty l'], fun h => absurd h (by simp [empty l']), fun h => absurd (unread l') h⟩
    constructor <;> simp only [State.withPort_link]
    case atMostOne => exact fun l' => (links l').1
    case outstanding => exact fun l' h => (links l').2.1 ((Link.any_isPlaceholder_iff _).1 h)
    case atPort =>
      intro l' h
      rw [(links l').2.2 h, Option.map_some, hp]
    case inReset =>
      intro h
      simp [hrun] at h
  | endRead l f p hport hp hfit hph hgone hread =>
    have changed : (f (s.link l)).placeholders = 0 := by
      by_cases hr : (s.link l).sweep.read = .none
      · rw [hs.placeholders_of_unread hr] at hph
        exact Nat.le_zero.1 hph
      · have one := hs.atMostOne l
        have left := hgone hr
        unfold Link.placeholders at left ⊢
        omega
    have others : ∀ l', l' ≠ l → (s.link l').placeholders = 0 ∧ (s.link l').sweep.read = .none := fun l' hl =>
      have unread := hs.unread_of_port (by simpa [hport, hp] using hl.symm)
      ⟨hs.placeholders_of_unread unread, unread⟩
    refine State.placeholderLaw_of_unread ?_
    simp only [State.modLink_withPort, State.withPort_link]
    exact State.modLink_forall (P := fun _ k => k.placeholders = 0 ∧ k.sweep.read = .none) ⟨changed, hread⟩ others
  | grantPort p hport hp =>
    exact hs.of_le (fun l => by simp) (fun l h => absurd (hs.unread_of_free hport l) h) fun h => h
  | freePort p hport hp =>
    exact hs.of_le (fun l => by simp) (fun l h => absurd (hs.unread_of_port (by simp [hport, hp])) h) fun h => h

end State.PlaceholderLaw

/-! ## Sides and sweeps -/

/-- Every valid entry has an exporting side exactly where its direction has one (Table 1-2). -/
def State.SidesLaw (s : State) : Prop := ∀ i, ∀ w ∈ s.window i, w.exportSide.isSome = w.direction.hasExport

/-- The sweep engine of the link is active for the window. -/
def State.Sweeps (s : State) (l : LinkId) (i : Index) : Prop :=
  (s.link l).sweep.active.map ActiveSweep.window = some i

/-- The sweep law in terms of the engines: the sides that are SWEEPING are those an engine of their link is active for, and
an active engine stands on an UP link and has a window of that link (R106, R107, R113). -/
theorem State.sweepLaw_iff (s : State) : s.SweepLaw ↔
    (∀ i, ∀ w ∈ s.window i, (w.exportSide = some .sweeping ↔ s.Sweeps w.link i)) ∧
    ∀ l i, s.Sweeps l i → s.linkState l = .up ∧ (s.window i).map Window.link = some l := by
  constructor
  · intro h
    refine ⟨h.sweeping, fun l i hi => ?_⟩
    obtain ⟨sw, hsw, rfl⟩ := Option.map_eq_some_iff.1 hi
    exact h.active l sw hsw
  · rintro ⟨sweeping, active⟩
    exact ⟨sweeping, fun l sw hsw => active l sw.window (by rw [State.Sweeps, hsw, Option.map_some])⟩

/-- The entry `w` is to the sweep law what `v` is: the same link and direction, and a side in the same of the two kinds of
states. -/
structure Window.SweepsAs (w v : Window) : Prop where
  link : w.link = v.link
  direction : w.direction = v.direction
  side : w.exportSide.isSome = v.exportSide.isSome
  sweeping : w.exportSide = some .sweeping ↔ v.exportSide = some .sweeping

theorem Window.sweepsAs_refl (w : Window) : w.SweepsAs w := ⟨rfl, rfl, rfl, Iff.rfl⟩

/-- A side that is not SWEEPING takes another state that is not. -/
theorem Window.sweepsAs_withExport {w : Window} {x : ExportState} (hx : x ≠ .sweeping)
    (hw : w.exportSide ≠ some .sweeping) : (w.withExport x).SweepsAs w where
  link := rfl
  direction := rfl
  side := by simp [Window.withExport]
  sweeping := by simp [Window.withExport, hx, hw]

theorem Window.sweepsAs_linkDown {w : Window} {l : LinkId} (hw : w.link = l → w.exportSide ≠ some .sweeping) :
    (w.linkDown l).SweepsAs w := by
  unfold Window.linkDown
  split
  next hl => exact ⟨rfl, rfl, by simp [Window.allStale], by simp [Window.allStale, hw hl]⟩
  next => exact w.sweepsAs_refl

namespace State.SweepLaw

variable {s t : State} (hs : s.SweepLaw)
include hs

theorem sweeping_iff {i : Index} {w : Window} (hw : s.window i = some w) :
    w.exportSide = some .sweeping ↔ s.Sweeps w.link i := hs.sweeping i w hw

theorem up_of_sweeps {l : LinkId} {i : Index} (h : s.Sweeps l i) : s.linkState l = .up :=
  ((s.sweepLaw_iff.1 hs).2 l i h).1

theorem link_of_sweeps {l : LinkId} {i : Index} {w : Window} (h : s.Sweeps l i) (hw : s.window i = some w) :
    w.link = l := by
  have := ((s.sweepLaw_iff.1 hs).2 l i h).2
  rwa [hw, Option.map_some, Option.some.injEq] at this

theorem valid_of_sweeps {l : LinkId} {i : Index} (h : s.Sweeps l i) : s.window i ≠ none := fun hoff => by
  have := ((s.sweepLaw_iff.1 hs).2 l i h).2
  simp [hoff] at this

/-- Entries that are to the law what they were, engines that keep their windows, and links that stay UP under them. -/
theorem of_sweepsAs {g : Index → Window → Window} (entries : ∀ i, t.window i = (s.window i).map (g i))
    (as : ∀ i, ∀ w ∈ s.window i, (g i w).SweepsAs w) (engines : ∀ l i, t.Sweeps l i ↔ s.Sweeps l i)
    (up : ∀ l i, s.Sweeps l i → s.linkState l = .up → t.linkState l = .up) : t.SweepLaw := by
  rw [State.sweepLaw_iff]
  constructor
  · intro i w hw
    rw [entries, Option.mem_def, Option.map_eq_some_iff] at hw
    obtain ⟨v, hv, rfl⟩ := hw
    rw [(as i v hv).sweeping, (as i v hv).link, engines]
    exact hs.sweeping_iff hv
  · intro l i h
    rw [engines] at h
    obtain ⟨hup, hl⟩ := (s.sweepLaw_iff.1 hs).2 l i h
    refine ⟨up l i h hup, ?_⟩
    obtain ⟨v, hv, hlv⟩ := Option.map_eq_some_iff.1 hl
    rw [entries, hv, Option.map_some, Option.map_some, (as i v hv).link, hlv]

theorem congr (windows : t.windows = s.windows) (links : ∀ l, t.link l = s.link l) : t.SweepLaw :=
  hs.of_sweepsAs (g := fun _ w => w) (fun i => by simp [State.window, windows]) (fun _ w _ => w.sweepsAs_refl)
    (fun l i => by rw [State.Sweeps, links]; exact Iff.rfl) (fun l _ _ h => by rwa [State.linkState, links])

theorem modWindow {i : Index} {f : Window → Window} (h : ∀ w ∈ s.window i, (f w).SweepsAs w) :
    (s.modWindow i f).SweepLaw := by
  refine hs.of_sweepsAs (g := fun j => if j = i then f else fun w => w) (fun j => ?_) (fun j w hw => ?_)
    (fun l j => by simp [State.Sweeps]) (fun l j _ hup => by simpa using hup)
  · by_cases hj : j = i
    · subst hj
      simp
    · simp [hj, State.modWindow_window_ne _ hj]
  · by_cases hj : j = i
    · subst hj
      simpa using h w hw
    · simpa [hj] using w.sweepsAs_refl

/-- A link changes, its engine keeping its window, and leaves UP only with its engine IDLE. -/
theorem modLink {l : LinkId} {f : Link → Link}
    (hw : (f (s.link l)).sweep.active.map ActiveSweep.window = (s.link l).sweep.active.map ActiveSweep.window)
    (hup : (s.link l).control.state = .up → (f (s.link l)).control.state = .up ∨ (s.link l).sweep.active = none) :
    (s.modLink l f).SweepLaw := by
  have links : ∀ l', ((s.modLink l f).link l').sweep.active.map ActiveSweep.window =
        (s.link l').sweep.active.map ActiveSweep.window ∧
      ((s.link l').control.state = .up →
        ((s.modLink l f).link l').control.state = .up ∨ (s.link l').sweep.active = none) :=
    State.modLink_forall (P := fun l' k =>
        k.sweep.active.map ActiveSweep.window = (s.link l').sweep.active.map ActiveSweep.window ∧
        ((s.link l').control.state = .up → k.control.state = .up ∨ (s.link l').sweep.active = none))
      ⟨hw, hup⟩ fun _ _ => ⟨rfl, .inl⟩
  refine hs.of_sweepsAs (g := fun _ w => w) (fun i => by simp) (fun _ w _ => w.sweepsAs_refl)
    (fun l' i => by rw [State.Sweeps, (links l').1]; exact Iff.rfl) (fun l' i hi up => ?_)
  rcases (links l').2 up with h | h
  · exact h
  · simp [State.Sweeps, h] at hi

end State.SweepLaw

end Sys2Proof.Machine
end

section
/-! SUPPORT. The changes that begin and end a sweep, and the laws of sweeps after every change and every step. -/

namespace Sys2Proof.Machine

/-! ## Sides -/

/-- An entry of a changed table stands where one stood, with the sides of its direction as before. -/
theorem State.SidesLaw.of_entries {s t : State} (hs : s.SidesLaw)
    (h : ∀ i, ∀ w ∈ t.window i, ∃ v ∈ s.window i, w.exportSide.isSome = v.exportSide.isSome ∧
      w.direction = v.direction) : t.SidesLaw := by
  intro i w hw
  obtain ⟨v, hv, hside, hdir⟩ := h i w hw
  rw [hside, hdir]
  exact hs i v hv

namespace State.SidesLaw

variable {s t : State} (hs : s.SidesLaw)
include hs

theorem congr (windows : t.windows = s.windows) : t.SidesLaw :=
  hs.of_entries fun i w hw => ⟨w, by rwa [State.window, ← windows], rfl, rfl⟩

theorem modWindow {i : Index} {f : Window → Window}
    (h : ∀ w, (f w).exportSide.isSome = w.exportSide.isSome ∧ (f w).direction = w.direction) :
    (s.modWindow i f).SidesLaw :=
  hs.of_entries fun j w hw => by
    by_cases hj : j = i
    · subst hj
      rw [State.modWindow_window, Option.mem_def, Option.map_eq_some_iff] at hw
      obtain ⟨v, hv, rfl⟩ := hw
      exact ⟨v, hv, h v⟩
    · rw [State.modWindow_window_ne _ hj] at hw
      exact ⟨w, hw, rfl, rfl⟩

theorem modWindows {f : Window → Window} (h : ∀ w, (f w).Redescribes w) : (s.modWindows f).SidesLaw :=
  hs.of_entries fun i w hw => by
    rw [State.modWindows_window, Option.mem_def, Option.map_eq_some_iff] at hw
    obtain ⟨v, hv, rfl⟩ := hw
    exact ⟨v, hv, (h v).exportSide, (h v).direction⟩

theorem withExport (i : Index) (x : ExportState) : (s.modWindow i (·.withExport x)).SidesLaw :=
  hs.modWindow fun w => ⟨(w.withExport_redescribes x).exportSide, rfl⟩

theorem setWindow {i : Index} {e : Option Window}
    (h : ∀ w ∈ e, w.exportSide.isSome = w.direction.hasExport) : (s.setWindow i e).SidesLaw := by
  intro j w hw
  by_cases hj : j = i
  · subst hj
    rw [State.setWindow_window] at hw
    exact h w hw
  · rw [State.setWindow_window_ne _ hj] at hw
    exact hs j w hw

/-- Every change keeps the sides of each entry, or makes an entry with the sides of its direction. -/
theorem move (h : s.Move t) : t.SidesLaw := by
  cases h with
  | outside t h => exact hs.congr (by rw [h])
  | events | partConfig | grantPort | freePort => exact hs.congr rfl
  | link | configure => exact hs.congr (State.modLink_windows _ _ _)
  | softReset =>
    exact (hs.modWindows Window.allStale_redescribes).congr ((State.modLink_windows _ _ _).trans
      (State.modLink_windows _ _ _))
  | entry i f h =>
    exact hs.modWindow fun w => by
      obtain ⟨-, direction, side⟩ := h w
      exact ⟨by rw [side], direction⟩
  | exportStale => exact hs.withExport _ _
  | linkStale l h => exact hs.modWindows (Window.linkDown_redescribes l)
  | setEntry i w hoff hx hside =>
    exact hs.setWindow fun v hv => by
      obtain rfl := Option.some.inj hv
      exact hside
  | clearEntry i w hw => exact State.SidesLaw.setWindow (hs.congr (State.modLink_windows _ _ _)) nofun
  | startSweep i w => exact (hs.withExport i .sweeping).congr (State.modLink_windows _ _ _)
  | endSweep l f sw x => exact State.SidesLaw.withExport (hs.congr (State.modLink_windows _ _ _)) _ _
  | grantRead l f p => exact hs.congr (State.modLink_windows _ _ _)
  | endRead l f p => exact hs.congr (State.modLink_windows { s with port := none } _ _)

end State.SidesLaw

/-! ## Sweeps that begin and end -/

theorem State.sweeps_modLink {s : State} {l l' : LinkId} {f : Link → Link} {i : Index} :
    (s.modLink l f).Sweeps l' i ↔
      if l' = l then (f (s.link l)).sweep.active.map ActiveSweep.window = some i else s.Sweeps l' i := by
  by_cases hl : l' = l
  · subst hl
    simp [State.Sweeps]
  · simp [State.Sweeps, State.modLink_link_ne _ hl, hl]

@[simp] theorem State.sweeps_setWindow {s : State} {j : Index} {e : Option Window} {l : LinkId} {i : Index} :
    (s.setWindow j e).Sweeps l i ↔ s.Sweeps l i := by simp [State.Sweeps]

@[simp] theorem State.sweeps_modWindow {s : State} {j : Index} {f : Window → Window} {l : LinkId} {i : Index} :
    (s.modWindow j f).Sweeps l i ↔ s.Sweeps l i := by simp [State.Sweeps]

theorem Link.stopSweepOf_active (k : Link) (i : Index) : (k.stopSweepOf i).sweep.active =
    if k.sweep.active.map ActiveSweep.window = some i then none else k.sweep.active := by
  unfold Link.stopSweepOf
  dsimp only
  split <;> rfl

namespace State.SweepLaw

variable {s t : State} (hs : s.SweepLaw)
include hs

/-- No engine is active for an OFF entry, so an entry that enters with no SWEEPING side agrees with the engines (R6). -/
theorem setEntry {i : Index} {w : Window} (hoff : s.window i = none) (hx : w.exportSide ≠ some .sweeping) :
    (s.setWindow i (some w)).SweepLaw := by
  rw [State.sweepLaw_iff]
  constructor
  · intro j v hv
    rw [State.sweeps_setWindow]
    by_cases hj : j = i
    · subst hj
      obtain rfl : w = v := by simpa using hv
      exact iff_of_false hx fun h => hs.valid_of_sweeps h hoff
    · rw [State.setWindow_window_ne _ hj] at hv
      exact hs.sweeping_iff hv
  · intro l j h
    rw [State.sweeps_setWindow] at h
    have hj : j ≠ i := fun e => hs.valid_of_sweeps h (e ▸ hoff)
    rw [State.setWindow_window_ne _ hj, State.setWindow_linkState]
    exact (s.sweepLaw_iff.1 hs).2 l j h

/-- An entry goes OFF with the sweep of its window (R7). -/
theorem clearEntry {i : Index} {w : Window} (hw : s.window i = some w) :
    ((s.modLink w.link (·.stopSweepOf i)).setWindow i none).SweepLaw := by
  have engines : ∀ l j, ((s.modLink w.link (·.stopSweepOf i)).setWindow i none).Sweeps l j ↔ s.Sweeps l j ∧ j ≠ i := by
    intro l j
    rw [State.sweeps_setWindow, State.sweeps_modLink, Link.stopSweepOf_active]
    by_cases hl : l = w.link
    · subst hl
      rw [if_pos rfl]
      split
      next h =>
        refine iff_of_false (by simp) fun ⟨hj, hne⟩ => hne ?_
        exact Option.some.inj (hj.symm.trans h)
      next h => exact ⟨fun hj => ⟨hj, fun e => h (e ▸ hj)⟩, fun hj => hj.1⟩
    · rw [if_neg hl]
      exact ⟨fun hj => ⟨hj, fun e => hl (hs.link_of_sweeps (e ▸ hj) hw).symm⟩, fun hj => hj.1⟩
  rw [State.sweepLaw_iff]
  constructor
  · intro j v hv
    have hj : j ≠ i := fun e => by
      subst e
      simp at hv
    rw [State.setWindow_window_ne _ hj, State.modLink_window] at hv
    rw [engines, hs.sweeping_iff hv]
    exact ⟨fun h => ⟨h, hj⟩, fun h => h.1⟩
  · intro l j h
    obtain ⟨h, hj⟩ := (engines l j).1 h
    obtain ⟨hup, hlink⟩ := (s.sweepLaw_iff.1 hs).2 l j h
    rw [State.setWindow_window_ne _ hj, State.modLink_window, State.setWindow_linkState]
    refine ⟨?_, hlink⟩
    exact State.modLink_forall (P := fun l' k => (s.link l').control.state = .up → k.control.state = .up)
      (fun h => h) (fun _ _ h => h) l hup

/-- The IDLE engine of an UP link becomes active for a window of the link that has an exporting side (R107). -/
theorem startSweep {i : Index} {w : Window} (hw : s.window i = some w) (hside : w.exportSide.isSome = true)
    (hup : s.linkState w.link = .up) (hidle : (s.link w.link).sweep.active = none) :
    ((s.modWindow i (·.withExport .sweeping)).modLink w.link fun k =>
      { k with sweep := { k.sweep with active := some { phase := .opening, window := i, next := 0 } } }).SweepLaw := by
  have idle : ∀ j, ¬ s.Sweeps w.link j := fun j => by simp [State.Sweeps, hidle]
  have elsewhere : ∀ l j, s.Sweeps l j → j ≠ i := by
    rintro l j h rfl
    obtain rfl := hs.link_of_sweeps h hw
    exact idle j h
  rw [State.sweepLaw_iff]
  simp only [State.sweeps_modLink, State.sweeps_modWindow, State.modLink_window]
  constructor
  · intro j v hv
    by_cases hj : j = i
    · subst hj
      obtain rfl : w.withExport .sweeping = v := by simpa [hw] using hv
      simpa [Window.withExport] using Option.isSome_iff_exists.1 hside
    · rw [State.modWindow_window_ne _ hj] at hv
      rw [hs.sweeping_iff hv]
      split
      next hl =>
        rw [hl]
        exact iff_of_false (idle j) (by simpa using fun e => hj e.symm)
      next => rfl
  · intro l j h
    split at h
    next hl =>
      obtain rfl : i = j := by simpa using h
      rw [hl, State.modLink_linkState, State.modWindow_link, State.modWindow_window, hw]
      exact ⟨hup, rfl⟩
    next hl =>
      obtain ⟨hup, hlink⟩ := (s.sweepLaw_iff.1 hs).2 l j h
      rw [State.modWindow_window_ne _ (elsewhere l j h), State.linkState, State.modLink_link_ne _ hl, State.modWindow_link]
      exact ⟨hup, hlink⟩

/-- The sweep of a link ends, its window's side IN_STEP or STALE; the link may leave UP with it (R112, R113). -/
theorem endSweep {l : LinkId} {f : Link → Link} {sw : ActiveSweep} {x : ExportState} (hx : x ≠ .sweeping)
    (hsw : (s.link l).sweep.active = some sw) (hidle : (f (s.link l)).sweep.active = none) :
    ((s.modLink l f).modWindow sw.window (·.withExport x)).SweepLaw := by
  have swept : s.Sweeps l sw.window := by simp [State.Sweeps, hsw]
  have engines : ∀ l' j, ((s.modLink l f).modWindow sw.window (·.withExport x)).Sweeps l' j ↔
      l' ≠ l ∧ s.Sweeps l' j := by
    intro l' j
    rw [State.sweeps_modWindow, State.sweeps_modLink]
    split
    next hl => simp [hidle, hl]
    next hl => simp [hl]
  rw [State.sweepLaw_iff]
  constructor
  · intro j v hv
    rw [engines]
    by_cases hj : j = sw.window
    · subst hj
      rw [State.modWindow_window, State.modLink_window, Option.mem_def, Option.map_eq_some_iff] at hv
      obtain ⟨u, hu, rfl⟩ := hv
      have onLink : u.link = l := hs.link_of_sweeps swept hu
      exact iff_of_false (by simp [Window.withExport, hx]) fun h => h.1 onLink
    · rw [State.modWindow_window_ne _ hj, State.modLink_window] at hv
      rw [hs.sweeping_iff hv]
      refine ⟨fun h => ⟨fun hl => hj ?_, h⟩, fun h => h.2⟩
      rw [hl] at h
      exact Option.some.inj (h.symm.trans swept)
  · intro l' j h
    obtain ⟨hl, h⟩ := (engines l' j).1 h
    obtain ⟨hup, hlink⟩ := (s.sweepLaw_iff.1 hs).2 l' j h
    have hj : j ≠ sw.window := by
      rintro rfl
      obtain ⟨u, hu, hlu⟩ := Option.map_eq_some_iff.1 hlink
      exact hl (hlu.symm.trans (hs.link_of_sweeps swept hu))
    rw [State.modWindow_window_ne _ hj, State.modLink_window, State.modWindow_linkState, State.linkState,
      State.modLink_link_ne _ hl]
    exact ⟨hup, hlink⟩

omit hs in
/-- Without an active engine and a SWEEPING side the law holds. -/
theorem of_idle (engines : ∀ l, (s.link l).sweep.active = none)
    (sides : ∀ i, ∀ w ∈ s.window i, w.exportSide ≠ some .sweeping) : s.SweepLaw := by
  rw [State.sweepLaw_iff]
  have idle : ∀ l i, ¬ s.Sweeps l i := fun l i => by simp [State.Sweeps, engines l]
  exact ⟨fun i w hw => iff_of_false (sides i w hw) (idle _ _), fun l i h => absurd h (idle l i)⟩

/-- Every change keeps the law of sweeps, where every entry has the sides of its direction. -/
theorem move (sides : s.SidesLaw) (h : s.Move t) : t.SweepLaw := by
  cases h with
  | outside t h => exact hs.congr (by rw [h]) (fun l => by rw [h]; cases l <;> rfl)
  | events | partConfig => exact hs.congr rfl fun l => by cases l <;> rfl
  | grantPort | freePort => exact hs.congr rfl (State.withPort_link s _)
  | link l f h => exact hs.modLink h.window h.up
  | configure l cfg hrun h =>
    exact hs.modLink (by rw [Link.configure, Link.evalHold_eq]) (by rw [Link.configure, Link.evalHold_eq]; exact .inl)
  | softReset =>
    refine State.SweepLaw.of_idle (fun l => by cases l <;> rfl) fun i w hw => ?_
    rw [State.modLink_window, State.modLink_window, State.modWindows_window, Option.mem_def, Option.map_eq_some_iff] at hw
    obtain ⟨v, -, rfl⟩ := hw
    simp [Window.allStale]
  | entry i f h =>
    exact hs.modWindow fun w _ => by
      obtain ⟨link, direction, side⟩ := h w
      exact ⟨link, direction, by rw [side], by rw [side]⟩
  | exportStale i w hw hx =>
    exact hs.modWindow fun v hv => by
      obtain rfl : w = v := by simpa [hw] using hv
      exact Window.sweepsAs_withExport (by decide) (by simp [hx])
  | linkStale l h =>
    refine hs.of_sweepsAs (State.modWindows_window _ s) (fun i w hw => Window.sweepsAs_linkDown fun hl hsweeping => ?_)
      (fun l' i => by rw [State.Sweeps, State.modWindows_link]; exact Iff.rfl)
      (fun l' i _ hup => by rwa [State.linkState, State.modWindows_link])
    have swept := (hs.sweeping_iff hw).1 hsweeping
    simp [State.Sweeps, hl, h] at swept
  | setEntry i w hoff hx => exact hs.setEntry hoff hx
  | clearEntry i w hw => exact hs.clearEntry hw
  | startSweep i w hw hx hup hidle => exact hs.startSweep hw ((sides i w hw).trans hx) hup hidle
  | endSweep l f sw x hx hsw hfit hph hidle => exact hs.endSweep hx hsw hidle
  | grantRead l f p hrun hport hp hfit hph hread hactive hstate =>
    exact (hs.modLink (by rw [hactive]) (by rw [hstate]; exact .inl)).congr rfl (State.withPort_link _ _)
  | endRead l f p hport hp hfit hph hgone hread hactive hstate =>
    rw [State.modLink_withPort]
    exact (hs.modLink (by rw [hactive]) (by rw [hstate]; exact .inl)).congr rfl (State.withPort_link _ _)

end State.SweepLaw

/-- Settles O55: the two laws hold after every change, and after hardware reset; the sides of each entry, which the table law
gives, decide that a window whose sweep starts has a side to become SWEEPING. -/
theorem stepKeepsSweepLaws : Obligations.StepKeepsSweepLaws := by
  intro s t table sweep placeholder h
  have sides : s.SidesLaw := fun i w hw => (table.legal i w hw).exportSide
  suffices kept : t.SidesLaw ∧ t.SweepLaw ∧ t.PlaceholderLaw from kept.2
  refine step_keeps (P := fun u => u.SidesLaw ∧ u.SweepLaw ∧ u.PlaceholderLaw) ?_ ?_ ?_ ?_ ⟨sides, sweep, placeholder⟩ h
  · rintro u v m ⟨sides, sweep, placeholder⟩
    exact ⟨sides.move m, sweep.move sides m, placeholder.move m⟩
  · intro u spi
    have off : ∀ i, ∀ w ∈ State.reset.window i, False := fun i w hw => by simp at hw
    exact ⟨fun i w hw => (off i w hw).elim,
      State.SweepLaw.of_idle (fun l => by cases l <;> rfl) fun i w hw => (off i w hw).elim,
      State.placeholderLaw_of_unread fun l => by cases l <;> exact ⟨rfl, rfl⟩⟩
  · rintro u ⟨sides, sweep, placeholder⟩
    exact ⟨sides.congr rfl, sweep.congr rfl fun l => by cases l <;> rfl,
      placeholder.congr (fun l => by cases l <;> rfl) rfl nofun⟩
  · rintro u lasting ⟨sides, sweep, placeholder⟩
    exact ⟨sides.congr rfl, sweep.congr rfl (State.withPort_link u _),
      placeholder.of_le (fun l => by simp) (fun l hr => absurd (placeholder.inReset lasting l) hr) fun h => h⟩

end Sys2Proof.Machine
end

section
/-! STATEMENTS. FLUSH and the flush timer's expiry. -/

namespace Sys2Proof.Machine

/-! ## Flush due -/

/-- FLUSH on each link state (R29). -/
theorem State.flush_linkByte (s : State) (l : LinkId) :
    s.flush (linkByte l) =
      if (s.linkState l).carrying then (s.setFlushDue l).respondOk 0x0B else s.refuse 0x0B .wrongState := by
  rw [State.flush, linkOf_linkByte]

/-- Settles O15: the link byte and the link's state decide which of the three outcomes FLUSH has. -/
theorem flushSetsFlushDue : Obligations.FlushSetsFlushDue := by
  intro s out link ht
  have taken : exec (.flush link) s = .next (s.flush link) := State.take_of_taking ht (·.flush link)
  simp only [taken, ← State.refuse_of_taking ht]
  refine ⟨fun hb => ?_, ?_⟩
  · rw [State.flush, linkOf_eq_none hb]
  · rintro l rfl
    rw [State.flush_linkByte]
    refine ⟨fun hup hdraining => ?_, fun hl => ?_⟩
    · rw [if_neg (by simp [LinkState.carrying_iff, hup, hdraining])]
    · rw [if_pos ((LinkState.carrying_iff _).2 hl)]
      have selected : (s.setFlushDue l).spi = .active out false := by
        rw [← ht.selected]
        exact s.modLink_spi l _
      exact congrArg _ (State.respond_of_active selected _ _ _)

/-- Settles O41: the expiry happens exactly when the timer stands at 0. -/
theorem flushTimerSetsFlushDue : Obligations.FlushTimerSetsFlushDue := by
  intro s l hr
  have happens : exec (.flushTimerExpiry l) s =
    s.happening (s.link l).capture.flushTimer.hasRunOut (·.modLink l Link.flushExpiry) := rfl
  rw [happens]
  refine ⟨fun hout => ?_, fun hnot => ?_⟩
  · exact State.happening_of hr ((Timer.hasRunOut_iff _).2 hout) _
  · exact State.happening_not (Bool.eq_false_iff.2 (mt (Timer.hasRunOut_iff _).1 hnot)) _

end Sys2Proof.Machine
end

section
/-! SUPPORT. The claims on the memory port and their tests, each as what it says of the state. -/

namespace Sys2Proof.Machine

/-! ## Records for a word -/

theorem Record.isWriteOf_iff (r : Record) (t : Tag) (o : Offset) :
    r.isWriteOf t o = true ↔ ∃ m d, r = .write t o m d := by
  cases r <;> simp [Record.isWriteOf]

theorem Record.isWrite_iff (r : Record) : r.isWrite = true ↔ ∃ t o m d, r = .write t o m d := by
  cases r <;> simp [Record.isWrite]

theorem CaptureEntry.isCompleteWriteOf_iff (e : CaptureEntry) (t : Tag) (o : Offset) :
    e.isCompleteWriteOf t o = true ↔ ∃ m d, e = .record (.write t o m d) := by
  cases e <;> simp [CaptureEntry.isCompleteWriteOf, Record.isWriteOf_iff]

theorem Window.isShared_iff (w : Window) : w.isShared = true ↔ w.direction = .shared := by simp [Window.isShared]

namespace Link

variable (k : Link)

theorem hasWriteFor_iff (t : Tag) (o : Offset) :
    k.apply.queue.any (·.record.isWriteOf t o) = true ↔ k.HasWriteFor t o := by
  simp only [List.any_eq_true, Record.isWriteOf_iff, Link.HasWriteFor]
  constructor
  · rintro ⟨⟨r, seen, drain⟩, he, m, d, rfl⟩
    exact ⟨m, d, seen, drain, he⟩
  · rintro ⟨m, d, seen, drain, he⟩
    exact ⟨_, he, m, d, rfl⟩

/-! ## Room -/

theorem pendingRoom_iff (w : Window) (o : Offset) : k.pendingRoom w o = true ↔ k.HasPendingRoom w o := by
  simp [Link.pendingRoom, Link.HasPendingRoom, Window.isShared, ConflictUnit.hasEntry, Config.pendingCapacity, or_assoc]

theorem mergesInto_iff (w : Window) (o : Offset) : k.mergesInto w o = true ↔
    (w.coalesce = some true ∧ ∃ m d, CaptureEntry.record (.write w.tag o m d) ∈ k.capture.queue) := by
  simp only [Link.mergesInto, Bool.and_eq_true, decide_eq_true_eq, List.any_eq_true, CaptureEntry.isCompleteWriteOf_iff]
  refine and_congr_right fun _ => ⟨?_, ?_⟩
  · rintro ⟨_, he, m, d, rfl⟩
    exact ⟨m, d, he⟩
  · rintro ⟨m, d, he⟩
    exact ⟨_, he, m, d, rfl⟩

theorem roomForRead_iff (w : Window) (o : Offset) :
    k.roomForRead w o = true ↔ (k.capture.queue.length < Config.captureCapacity ∧ k.HasPendingRoom w o) := by
  simp [Link.roomForRead, hasSlot_iff, pendingRoom_iff]

theorem roomForWrite_iff (w : Window) (o : Offset) : k.roomForWrite w o = true ↔
    (k.HasPendingRoom w o ∧ (k.capture.queue.length < Config.captureCapacity ∨ (w.coalesce = some true ∧
      ∃ m d, CaptureEntry.record (.write w.tag o m d) ∈ k.capture.queue))) := by
  rw [Link.roomForWrite, Bool.and_eq_true, Bool.or_eq_true, hasSlot_iff, pendingRoom_iff, mergesInto_iff, and_comm,
    or_comm]

/-! ## Claims -/

theorem applyClaim_iff : k.applyClaim = true ↔ k.apply.outstanding = .none ∧
    ∃ t o m d seen drain rest, k.apply.queue = (⟨.write t o m d, seen, drain⟩ : ApplyEntry) :: rest := by
  rw [Link.applyClaim, Bool.and_eq_true, decide_eq_true_eq]
  refine and_congr_right fun _ => ?_
  rcases k.apply.queue with _ | ⟨⟨r, seen, drain⟩, rest⟩
  · simp
  · simp [Record.isWrite_iff]

end Link

theorem State.captureMade_iff (s : State) (w : Window) : s.captureMade w = true ↔
    ((w.exportSide = some .inStep ∨ w.exportSide = some .sweeping) ∧ (s.linkState w.link).running = true) := by
  simp [State.captureMade]

theorem State.sweepClaim_iff (s : State) (l : LinkId) (i : Index) (w : Window) (o : Offset) :
    s.sweepClaim l = some (i, w, o) ↔
      (s.link l).sweep.active = some { phase := .reading, window := i, next := o } ∧ s.window i = some w ∧
        (s.link l).sweep.read = .none ∧ (w.direction = .shared → ¬ (s.link l).HasWriteFor w.tag o) := by
  simp only [State.sweepClaim]
  rcases (s.link l).sweep.active with _ | ⟨_ | _ | _, j, o'⟩
  case some.reading =>
    rcases hw : s.window j with _ | v
    · simp only [hw, reduceCtorEq, false_iff]
      rintro ⟨⟨⟩, hi, -⟩
      exact absurd (hw.symm.trans hi) (by simp)
    · simp only [hw, Window.isShared_iff, Link.hasWriteFor_iff, not_and, Option.ite_none_right_eq_some,
        Option.some.injEq, Prod.mk.injEq, ActiveSweep.mk.injEq, true_and]
      constructor
      · rintro ⟨h, rfl, rfl, rfl⟩
        exact ⟨⟨rfl, rfl⟩, hw, h⟩
      · rintro ⟨⟨rfl, rfl⟩, hi, h⟩
        obtain rfl := Option.some.inj (hw.symm.trans hi)
        exact ⟨h, rfl, rfl, rfl⟩
  all_goals simp

theorem State.sweepEligible_iff (s : State) (l : LinkId) : s.sweepEligible l = true ↔
    ∃ i w o, s.sweepClaim l = some (i, w, o) ∧ (s.link l).roomForRead w o = true := by
  rw [State.sweepEligible]
  rcases s.sweepClaim l with _ | ⟨i, w, o⟩ <;> simp

theorem State.hostEligible_of_plain {s : State} (h : s.host.handling ≠ some .capturing) : s.hostEligible = true := by
  rw [State.hostEligible, if_neg h]

/-- The claim of a capturing write waits for room while its capture is still to be made (R22). -/
theorem State.hostEligible_of_capturing {s : State} {i : Index} {o : Offset} {w : Window}
    (h : s.host.handling = some .capturing) (hc : s.host.classification = some (.window i o))
    (hw : s.window i = some w) :
    s.hostEligible = true ↔ (s.captureMade w = true → (s.link w.link).roomForWrite w o = true) := by
  have target : s.hostTarget = some (i, w, o) := by simp [State.hostTarget, hc, hw]
  rw [State.hostEligible, if_pos h, target]
  simp [imp_iff_not_or]

/-- Settles O31, clause by clause from the test of each claim. -/
theorem claimTests : Obligations.ClaimTests := by
  intro s
  refine ⟨fun l => (s.link l).applyClaim_iff, s.sweepClaim_iff, fun l => ?_, State.hostEligible_of_plain, ?_⟩
  · simp only [State.sweepEligible_iff, Link.roomForRead_iff, Config.captureCapacity]
  · intro i o w hh hc hw
    rw [State.hostEligible_of_capturing hh hc hw, State.captureMade_iff, Link.roomForWrite_iff, and_imp,
      Config.captureCapacity]

end Sys2Proof.Machine
end

section
/-! SUPPORT. The tick of the timebase: the expiries it queues, each once. -/

namespace Sys2Proof.Machine

/-! ## Expiries -/

theorem Timer.runsOut_iff (t : Timer) : t.runsOut = true ↔ (t = .running 0 ∨ t = .running 1) := by
  rcases t with _ | n | n
  case running =>
    simp only [Timer.runsOut, decide_eq_true_eq, Timer.running.injEq]
    omega
  all_goals simp [Timer.runsOut]

theorem mem_singleton_if {α : Type} {b : Bool} {x c : α} :
    (x ∈ if b = true then [c] else []) ↔ (x = c ∧ b = true) := by
  cases b <;> simp

theorem sublist_singleton_if {α : Type} (b : Bool) (c : α) : (if b = true then [c] else []).Sublist [c] := by
  cases b <;> simp

theorem Link.mem_expiries (k : Link) (l : LinkId) (c : Instr) : c ∈ k.expiries l ↔
    (c = .flushTimerExpiry l ∧ k.capture.flushTimer.runsOut = true) ∨
    (c = .ackTimerExpiry l ∧ k.tx.ackTimer.runsOut = true) ∨
    (c = .peerHoldLimitExpiry l ∧ k.control.peerHoldTimer.runsOut = true) ∨
    (c = .silenceTimerExpiry l ∧ k.rx.silenceTimer.runsOut = true) ∨
    (c = .trainingTimerExpiry l ∧ k.control.trainingTimer.runsOut = true) := by
  simp only [Link.expiries, List.mem_append, mem_singleton_if, or_assoc]

theorem State.mem_expiries (s : State) (c : Instr) : c ∈ s.expiries ↔
    (∃ l, c ∈ (s.link l).expiries l) ∨ (c = .captureHoldExpiry ∧ s.host.holdTimer.runsOut = true) := by
  simp only [State.expiries, List.mem_append, mem_singleton_if]
  refine or_congr_left ⟨?_, ?_⟩
  · rintro (h | h)
    · exact ⟨.a, h⟩
    · exact ⟨.b, h⟩
  · rintro ⟨_ | _, h⟩
    · exact .inl h
    · exact .inr h

/-- The expiries of a link's timers, in the order of the model. -/
def linkExpiries (l : LinkId) : List Instr :=
  [.flushTimerExpiry l] ++ [.ackTimerExpiry l] ++ [.peerHoldLimitExpiry l] ++ [.silenceTimerExpiry l] ++
    [.trainingTimerExpiry l]

theorem Link.expiries_sublist (k : Link) (l : LinkId) : (k.expiries l).Sublist (linkExpiries l) :=
  ((((sublist_singleton_if _ _).append (sublist_singleton_if _ _)).append (sublist_singleton_if _ _)).append
    (sublist_singleton_if _ _)).append (sublist_singleton_if _ _)

/-- Each expiry comes once: they are some of the expiries of eleven timers. -/
theorem State.expiries_nodup (s : State) : s.expiries.Nodup := by
  have all : (linkExpiries .a ++ linkExpiries .b ++ [Instr.captureHoldExpiry]).Nodup := by decide
  exact all.sublist
    (((s.a.expiries_sublist .a).append (s.b.expiries_sublist .b)).append (sublist_singleton_if _ _))

/-! ## Ticks -/

theorem step_of_idle {s : State} (h : s.pending = []) : step s = .next s.tick := by
  rw [step]
  simp only [h]

theorem State.tick_of_reset {s : State} (h : s.inReset = true) : s.tick = s := by simp [State.tick, h]

theorem State.tick_of_running {s : State} (h : s.inReset = false) :
    s.tick = { s with
      pending := s.pending ++ s.expiries
      a := s.a.tick
      b := s.b.tick
      host := { s.host with holdTimer := s.host.holdTimer.tick } } := by simp [State.tick, h]

/-- Settles O2: the tick counts every timer down and queues the expiries of those that run out. -/
theorem stepWithoutCommandTicks : Obligations.StepWithoutCommandTicks := by
  intro s idle
  rw [step_of_idle idle]
  refine ⟨fun hr => by rw [State.tick_of_reset hr], fun hr => ?_⟩
  intro later ends
  have later_eq : later = Timer.tick := by
    funext x
    rcases x with _ | (_ | n) | n <;> rfl
  have ends_iff : ∀ x, ends x ↔ x.runsOut = true := fun x => x.runsOut_iff.symm
  have queued : s.tick.pending = s.expiries := by rw [State.tick_of_running hr, idle]; rfl
  rw [later_eq]
  refine ⟨s.tick, rfl, ?_, fun l => ?_, ?_, ?_, fun c => ?_⟩
  · rw [State.tick_of_running hr]
  · rw [State.tick_of_running hr]
    cases l <;> rfl
  · rw [State.tick_of_running hr]
  · rw [queued]
    exact s.expiries_nodup
  · simp only [queued, State.mem_expiries, Link.mem_expiries, ends_iff]
    simp only [exists_or, or_assoc, or_left_comm]

end Sys2Proof.Machine
end

section
/-! SUPPORT. The frame builder: its conditions, the notices that it places and clears, and the records that it takes. -/

namespace Sys2Proof.Machine

/-! ## Conditions of a build -/

theorem availableRecords_isEmpty (q : List CaptureEntry) :
    (availableRecords q).isEmpty = false ↔ ∃ r rest, q = .record r :: rest := by
  rcases q with _ | ⟨_ | _, rest⟩ <;> simp [availableRecords]

theorem Link.stalled_iff (k : Link) : k.stalled = false ↔
    (k.control.rank = .senior → (k.tx.nextSend - k.conflict.horizon).toNat < Config.stallDistance) := by
  simp [Link.stalled]

/-- While the link carries frames, the peer hold is the flag that its mode names (R53, R56). -/
theorem Link.peerHold_of_carrying {k : Link} (h : k.control.state = .up ∨ k.control.state = .draining) :
    k.peerHold = if k.config.mode = .loop then k.apply.holdFlag else k.tx.peerHold := by
  simp only [k.peerHold_eq, h, and_true]

theorem State.buildReady_iff {s : State} {l : LinkId} {c : FrameClass}
    (hc : (s.link l).control.effectiveClass = some c) : s.buildReady l = true ↔ s.MayBuild l c := by
  simp only [State.buildReady, hc, Option.any_some, Bool.and_eq_true, Bool.or_eq_true, Bool.not_eq_true',
    decide_eq_true_eq, LinkState.carrying_iff, Link.stalled_iff, State.noticeOwed_iff, availableRecords_isEmpty,
    availableRecords_length, or_assoc, and_assoc]
  constructor
  · rintro ⟨state, hold, inFlight, notStalled, item, due⟩
    rw [Link.peerHold_of_carrying state] at hold
    exact ⟨state, hold, inFlight, notStalled, item, due⟩
  · rintro ⟨state, hold, inFlight, notStalled, item, due⟩
    rw [← Link.peerHold_of_carrying state] at hold
    exact ⟨state, hold, inFlight, notStalled, item, due⟩

/-! ## Notices owed -/

theorem State.mem_noticeWindows (s : State) (l : LinkId) (i : Index) :
    i ∈ s.noticeWindows l ↔ ∃ w ∈ s.window i, w.link = l ∧ w.notice = true := by
  simp [State.noticeWindows, mem_allIndices, Option.any_eq_true]

theorem State.noticeWindows_increasing (s : State) (l : LinkId) : (s.noticeWindows l).Pairwise (· < ·) := by
  have increasing : allIndices.Pairwise (· < ·) := by decide
  exact increasing.filter _

/-- The windows that owe a notice are known by their increasing order. -/
theorem State.noticeWindows_eq {s : State} {l : LinkId} {owed : List Index} (increasing : owed.Pairwise (· < ·))
    (members : ∀ i, i ∈ owed ↔ ∃ w ∈ s.window i, w.link = l ∧ w.notice = true) : s.noticeWindows l = owed := by
  have mem_iff : ∀ i, i ∈ s.noticeWindows l ↔ i ∈ owed := fun i => by rw [State.mem_noticeWindows, members]
  exact List.Pairwise.eq_of_mem_iff (s.noticeWindows_increasing l) increasing mem_iff

/-! ## Notices cleared -/

/-- The state with the notices of these windows cleared, as the builder does it. -/
def State.clearNotices (s : State) (is : List Index) : State :=
  is.foldl (fun s i => s.modWindow i fun w => { w with notice := false }) s

theorem State.clearNotices_cons (s : State) (j : Index) (is : List Index) :
    s.clearNotices (j :: is) = (s.modWindow j fun w => { w with notice := false }).clearNotices is := rfl

theorem State.clearNotices_eq (s : State) (is : List Index) :
    s.clearNotices is = { s with windows := (s.clearNotices is).windows } := by
  induction is generalizing s with
  | nil => rfl
  | cons j is ih => exact ih _

theorem State.clearNotices_window (s : State) (is : List Index) (i : Index) : (s.clearNotices is).window i =
    if i ∈ is then (s.window i).map fun w => { w with notice := false } else s.window i := by
  induction is generalizing s with
  | nil => rfl
  | cons j is ih =>
    rw [State.clearNotices_cons, ih]
    by_cases hj : i = j
    · subst hj
      rw [State.modWindow_window]
      simp [Function.comp_def]
    · simp [State.modWindow_window_ne _ hj, hj]

/-- A notice is still owed exactly when more windows owed one than a frame has items. -/
theorem State.noticeOwed_clearNotices (s : State) (l : LinkId) (n : Nat) :
    (s.clearNotices ((s.noticeWindows l).take n)).noticeOwed l = decide (n < (s.noticeWindows l).length) := by
  have nodup : (s.noticeWindows l).Nodup := (s.noticeWindows_increasing l).imp fun h => h.ne
  have left : ∀ i, (∃ w ∈ (s.clearNotices ((s.noticeWindows l).take n)).window i, w.link = l ∧ w.notice = true) ↔
      i ∈ s.noticeWindows l ∧ i ∉ (s.noticeWindows l).take n := by
    intro i
    rw [State.clearNotices_window, State.mem_noticeWindows]
    split
    next h => simp [h]
    next h => simp [h]
  rw [Bool.eq_iff_iff, State.noticeOwed_iff, decide_eq_true_eq]
  simp only [left]
  constructor
  · rintro ⟨i, owed, unplaced⟩
    by_contra h
    exact unplaced (by rwa [List.take_of_length_le (not_lt.1 h)])
  · intro h
    refine ⟨(s.noticeWindows l)[n], List.getElem_mem h, fun placed => ?_⟩
    obtain ⟨m, hm, e⟩ := List.mem_take_iff_getElem.1 placed
    have := nodup.getElem_inj_iff.1 e
    omega

/-! ## The build -/

/-- What is left of a queue when some of the complete records at its head are taken. -/
theorem drop_length_take (records : List Record) (blocked : List CaptureEntry) (n : Nat) :
    (records.map CaptureEntry.record ++ blocked).drop (records.take n).length =
      (records.drop n).map CaptureEntry.record ++ blocked := by
  have apart : records.map CaptureEntry.record ++ blocked =
      (records.take n).map CaptureEntry.record ++ ((records.drop n).map CaptureEntry.record ++ blocked) := by
    rw [← List.append_assoc, ← List.map_append, List.take_append_drop]
  rw [apart]
  exact List.drop_left' (List.length_map _)

theorem ConflictUnit.build_eq (c : ConflictUnit) (seq : Seq) (items : List Record) (queue : List CaptureEntry) :
    c.build seq items queue = { c with table := c.table.map fun e =>
      if (items.any (·.isWriteOf e.tag e.offset) = true ∧ queue.any (·.isWriteOf e.tag e.offset) = false) then
        { e with frame := some seq } else e } := by
  simp only [ConflictUnit.build, Bool.and_eq_true, Bool.not_eq_true']

/-- The link after a build of one frame with these items, `left` being the queue after it (R32, R33, R94). -/
def Link.framed (k : Link) (items : List Record) (left : List CaptureEntry) (owed : Bool) : Link :=
  { k with
    capture :=
      { queue := left
        flushTimer := if left = [] then .stopped else .running k.config.flushTime
        flushDue := owed }
    tx := { k.tx with
      retransmit := k.tx.retransmit ++ [{
        seq := k.tx.nextSend
        seen := k.rx.receiveExpected
        items := items
        check := frameCheck k.tx.nextSend k.rx.receiveExpected items
        sent := false }]
      nextSend := k.tx.nextSend + 1 }
    conflict := k.conflict.build k.tx.nextSend items left }

/-- A build, where the queue holds these complete records and then a placeholder or nothing (R31, R33). -/
theorem State.buildFrame_eq {s : State} {l : LinkId} {records : List Record} {blocked : List CaptureEntry}
    (queue : (s.link l).capture.queue = records.map CaptureEntry.record ++ blocked)
    (atPlaceholder : ∀ e ∈ blocked.head?, e.isPlaceholder = true) (n : Nat) :
    let placed := (s.noticeWindows l).take n
    let room := n - placed.length
    s.buildFrame l n = { (s.modLink l (·.framed (s.noticeItems placed ++ records.take room)
      ((records.drop room).map CaptureEntry.record ++ blocked) (decide (n < (s.noticeWindows l).length)))) with
        windows := (s.clearNotices placed).windows } := by
  intro placed room
  have available : availableRecords (s.link l).capture.queue = records := by
    rw [queue, availableRecords_split records blocked atPlaceholder]
  have left : (s.link l).capture.queue.drop (records.take room).length =
      (records.drop room).map CaptureEntry.record ++ blocked := by rw [queue, drop_length_take]
  have link : (s.clearNotices placed).link l = s.link l := by rw [State.clearNotices_eq]; rfl
  have owed := s.noticeOwed_clearNotices l n
  rw [← withWindows_modLink, ← State.clearNotices_eq]
  unfold State.buildFrame
  refine State.modLink_congr ?_
  rw [← State.clearNotices]
  simp only [available, left, owed, link, placed, room, List.isEmpty_iff, Link.framed]

theorem State.frameBuild_of_ready {s : State} {l : LinkId} {c : FrameClass}
    (hc : (s.link l).control.effectiveClass = some c) (ready : s.buildReady l = true) :
    s.frameBuild l = s.buildFrame l c.items := by
  simp [State.frameBuild, hc, ready]

/-- Settles O40: the conditions are those of the model, the notices owed are the list given, and the split of the queue
gives the records taken and what is left. -/
theorem frameBuilt : Obligations.FrameBuilt := by
  have happens : ∀ (s : State) l, exec (.frameBuild l) s =
    s.happening ((s.link l).control.effectiveClass.isSome && s.buildReady l) (·.frameBuild l) := fun _ _ => rfl
  refine ⟨fun s l h => ?_, fun s l c hr hc => ⟨fun h => ?_, fun h => ?_⟩⟩
  · rw [happens]
    refine State.happening_not ?_ _
    rcases h with h | ⟨hup, hdraining⟩
    · simp [h]
    · have down : (s.link l).control.state.carrying = false := by
        rw [Bool.eq_false_iff, Ne, LinkState.carrying_iff]
        exact not_or.2 ⟨hup, hdraining⟩
      simp [State.buildReady, down]
  · rw [happens]
    refine State.happening_not ?_ _
    rw [← State.buildReady_iff hc, Bool.not_eq_true] at h
    rw [h, Bool.and_false]
  · intro owed records blocked increasing members queue atPlaceholder placed taken left items seq seen
    have ready := (State.buildReady_iff hc).2 h
    have built := State.buildFrame_eq queue atPlaceholder c.items
    rw [State.noticeWindows_eq increasing members] at built
    refine ⟨s.buildFrame l c.items, ?_, ?_, fun i => ?_⟩
    · rw [happens, State.happening_of hr (by simp [hc, ready]), State.frameBuild_of_ready hc ready]
    · rw [built]
      refine congrArg (fun t : State => { t with windows := (s.clearNotices placed).windows })
        (State.modLink_congr ?_)
      rw [Link.framed, ConflictUnit.build_eq]
      rfl
    · rw [built]
      exact s.clearNotices_window placed i

end Sys2Proof.Machine
end

section
/-! SUPPORT. The sequence, ack-timer and receiver laws of one link as one law (`Link.Orderly`), and each change of a link that
the model makes keeps it (R43, R49, R53, R57, R61, R62, R67). -/

namespace Sys2Proof.Machine

/-! ## Retransmit lists -/

/-- Whether frames are consecutive depends on their sequence numbers alone (R43). -/
theorem framesFrom_congr {fs gs : List Frame} (h : gs.map Frame.seq = fs.map Frame.seq) (q : Seq) :
    framesFrom q gs ↔ framesFrom q fs := by
  induction fs generalizing gs q with
  | nil =>
    obtain rfl := List.map_eq_nil_iff.1 h
    exact Iff.rfl
  | cons f fs ih =>
    obtain ⟨g, gs', rfl, seq, rest⟩ := List.map_eq_cons_iff.1 h
    simp only [framesFrom, seq, ih rest]

theorem framesFrom_append (q : Seq) (fs gs : List Frame) :
    framesFrom q (fs ++ gs) ↔ framesFrom q fs ∧ framesFrom (q + BitVec.ofNat 6 fs.length) gs := by
  induction fs generalizing q with
  | nil => simp [framesFrom]
  | cons f fs ih =>
    have next : q + 1 + BitVec.ofNat 6 fs.length = q + BitVec.ofNat 6 (fs.length + 1) := by
      rw [Nat.add_comm fs.length 1, BitVec.ofNat_add, BitVec.add_assoc]
      rfl
    simp only [List.cons_append, framesFrom, ih, next, List.length_cons, and_assoc]

/-- The frames marked sent stand together at the head: no frame behind an unsent one is marked sent (R43). -/
def SentFirst (fs : List Frame) : Prop := fs.Pairwise fun f g => g.sent = true → f.sent = true

theorem anySent_eq_false {fs : List Frame} : anySent fs = false ↔ ∀ f ∈ fs, f.sent = false := by simp [anySent]

theorem sentFirst_of_noneSent {fs : List Frame} (h : anySent fs = false) : SentFirst fs :=
  List.pairwise_of_forall_mem_list fun _ _ g hg hs => by rw [anySent_eq_false.1 h g hg] at hs; cases hs

theorem sentFirst_iff (fs : List Frame) : SentFirst fs ↔ anySent (fs.dropWhile (·.sent)) = false := by
  induction fs with
  | nil => exact ⟨fun _ => rfl, fun _ => .nil⟩
  | cons f fs ih =>
    rw [SentFirst, List.pairwise_cons, ← SentFirst]
    cases hf : f.sent with
    | true => simp [hf, ih]
    | false =>
      simp only [List.dropWhile_cons, hf, Bool.false_eq_true, if_false, imp_false, Bool.not_eq_true]
      constructor
      · rintro ⟨behind, -⟩
        simpa [anySent_eq_false, hf] using behind
      · intro none
        have behind : ∀ g ∈ fs, g.sent = false := fun g hg => anySent_eq_false.1 none g (List.mem_cons_of_mem _ hg)
        exact ⟨behind, sentFirst_of_noneSent (anySent_eq_false.2 behind)⟩

theorem markFirstUnsent_map_seq (fs : List Frame) : (markFirstUnsent fs).map Frame.seq = fs.map Frame.seq := by
  induction fs with
  | nil => rfl
  | cons f fs ih =>
    unfold markFirstUnsent
    split <;> simp [ih]

/-- A list with an unsent frame: the frames ahead of the oldest unsent one, that frame, and the frames behind it. -/
theorem exists_split_of_find?_unsent {fs : List Frame} {f : Frame} (h : fs.find? (fun f => !f.sent) = some f) :
    ∃ pre post, fs = pre ++ f :: post ∧ (∀ g ∈ pre, g.sent = true) ∧ f.sent = false := by
  obtain ⟨unsent, pre, post, split, ahead⟩ := List.find?_eq_some_iff_append.1 h
  exact ⟨pre, post, split, by simpa using ahead, by simpa using unsent⟩

/-- Marking the oldest unsent frame keeps the sent frames together at the head (R43, R44). -/
theorem SentFirst.mark {pre post : List Frame} {f g : Frame} (h : SentFirst (pre ++ f :: post))
    (hpre : ∀ g ∈ pre, g.sent = true) (hf : f.sent = false) (hg : g.sent = true) : SentFirst (pre ++ g :: post) := by
  obtain ⟨_, behind, -⟩ := List.pairwise_append.1 h
  have unsent : anySent post = false := anySent_eq_false.2 fun x hx => by
    have := (List.pairwise_cons.1 behind).1 x hx
    simpa [hf] using this
  refine List.pairwise_append.2 ⟨?_, List.pairwise_cons.2 ⟨fun _ _ _ => hg, sentFirst_of_noneSent unsent⟩, ?_⟩
  · exact List.pairwise_of_forall_mem_list fun x hx _ _ _ => hpre x hx
  · exact fun x hx _ _ _ => hpre x hx

/-! ## The ack timer -/

/-- Is the timer as R49 and R56 want the ack timer, with this mode, this peer hold, and a sent frame listed or not? -/
def Timer.suits (t : Timer) (mode : LinkMode) (sent hold : Bool) : Bool :=
  match t with
  | .stopped => decide (mode = .loop) || !sent
  | .running _ => decide (mode = .normal) && sent && !hold
  | .paused _ => decide (mode = .normal) && sent && hold

section
variable {t : Timer} {mode : LinkMode} {sent hold : Bool}

theorem Timer.suits_loop : t.suits .loop sent hold = true ↔ t = .stopped := by cases t <;> simp [suits]

theorem Timer.suits_noneSent : t.suits mode false hold = true ↔ t = .stopped := by cases t <;> simp [suits]

theorem Timer.suits_running : t.suits .normal true false = true ↔ ∃ n, t = .running n := by cases t <;> simp [suits]

theorem Timer.suits_paused : t.suits .normal true true = true ↔ ∃ n, t = .paused n := by cases t <;> simp [suits]

theorem Timer.suits_tick : t.tick.suits mode sent hold = t.suits mode sent hold := by
  rcases t with _ | (_ | n) | n <;> rfl

/-- The timer follows the peer hold (R49). -/
theorem Timer.suits_hold (h : t.suits mode sent hold = true) (b : Bool) :
    (if b then t.pause else t.resume).suits mode sent b = true := by
  cases t <;> cases b <;> simp_all [suits, pause, resume]

/-- The timer follows progress, which never adds a sent frame (R46). -/
theorem Timer.suits_progress (h : t.suits mode sent hold = true) (full : Nat) {left : Bool} (hl : left = true → sent = true) :
    (progressTimer full left t).suits mode left hold = true := by
  cases left with
  | false => simp [progressTimer, suits_noneSent]
  | true =>
    rw [hl rfl] at h
    cases t <;> simpa [progressTimer, suits] using h

end

/-! ## The law of one link -/

/-- The sequence, ack-timer and receiver laws of a link (R43, R49, R57, R61, R62, R67). -/
structure Link.Orderly (k : Link) : Prop where
  consecutive : framesFrom k.tx.oldest k.tx.retransmit
  nextSend : k.tx.nextSend = k.tx.oldest + BitVec.ofNat 6 k.tx.retransmit.length
  sentFirst : k.config.mode = .normal → SentFirst k.tx.retransmit
  emptyList : k.control.state.carrying = false → k.tx.retransmit = []
  ackTimer : k.tx.ackTimer.suits k.config.mode (anySent k.tx.retransmit) k.tx.peerHold = true
  noHold : k.control.state.carrying = false → k.tx.peerHold = false
  noHoldTimer : (k.control.state.carrying || decide (k.control.peerHoldTimer = .stopped)) = true
  aligned : k.rx.alignment = .aligned →
    k.config.mode = .normal ∧ (k.control.state = .training ∨ k.control.state.carrying = true)
  assembly : k.rx.assembly.isSome = true → k.rx.alignment = .aligned ∧ k.control.state.carrying = true
  unexamined : k.examines = false → k.rx.alignment = .hunt ∧ k.rx.silenceTimer = .stopped

theorem Link.AckTimerLaw.suits {k : Link} (ack : k.AckTimerLaw) :
    k.tx.ackTimer.suits k.config.mode (anySent k.tx.retransmit) k.tx.peerHold = true := by
  cases hm : k.config.mode with
  | loop => exact Timer.suits_loop.2 (ack.loop hm)
  | normal =>
    cases hs : anySent k.tx.retransmit with
    | false => exact Timer.suits_noneSent.2 (ack.noneSent hs)
    | true =>
      cases hp : k.tx.peerHold with
      | false => exact Timer.suits_running.2 (ack.running hm hs hp)
      | true => exact Timer.suits_paused.2 (ack.paused hm hs hp)

theorem Link.orderly_iff (k : Link) : k.Orderly ↔ k.SequenceLaw ∧ k.AckTimerLaw ∧ k.ReceiverLaw := by
  constructor
  · intro h
    refine ⟨⟨h.consecutive, h.nextSend, fun hm => (sentFirst_iff _).1 (h.sentFirst hm), h.emptyList⟩, ?_,
      ⟨h.aligned, h.assembly, h.unexamined⟩⟩
    have timer := h.ackTimer
    exact {
      loop := fun hm => by rwa [hm, Timer.suits_loop] at timer
      noneSent := fun hs => by rwa [hs, Timer.suits_noneSent] at timer
      running := fun hm hs hp => by rwa [hm, hs, hp, Timer.suits_running] at timer
      paused := fun hm hs hp => by rwa [hm, hs, hp, Timer.suits_paused] at timer
      emptyList := h.emptyList
      noHold := fun hc => ⟨h.noHold hc, by simpa [hc] using h.noHoldTimer⟩ }
  · rintro ⟨sequence, ack, receiver⟩
    refine ⟨sequence.consecutive, sequence.nextSend, fun hm => (sentFirst_iff _).2 (sequence.sentFirst hm),
      sequence.emptyList, ack.suits, fun hc => (ack.noHold hc).1, ?_, receiver.aligned, receiver.assembly,
      receiver.unexamined⟩
    cases hc : k.control.state.carrying with
    | true => rfl
    | false => exact decide_eq_true (ack.noHold hc).2

/-- What the law of a link speaks of: its configuration, its state, its transmitter and receiver, and, on a link that is
neither UP nor DRAINING, whether its peer-hold-limit timer is stopped. -/
def Link.line (k : Link) : LinkConfig × LinkState × Transmitter × Receiver × Bool :=
  (k.config, k.control.state, k.tx, k.rx, k.control.state.carrying || decide (k.control.peerHoldTimer = .stopped))

theorem Link.Orderly.of_line {k k' : Link} (hk : k.Orderly) (h : k'.line = k.line) : k'.Orderly := by
  simp only [Link.line, Prod.mk.injEq] at h
  obtain ⟨config, state, tx, rx, timer⟩ := h
  have examines : k'.examines = k.examines := by rw [Link.examines, Link.examines, config, state]
  exact {
    consecutive := by rw [tx]; exact hk.consecutive
    nextSend := by rw [tx]; exact hk.nextSend
    sentFirst := by rw [tx, config]; exact hk.sentFirst
    emptyList := by rw [tx, state]; exact hk.emptyList
    ackTimer := by rw [tx, config]; exact hk.ackTimer
    noHold := by rw [tx, state]; exact hk.noHold
    noHoldTimer := by rw [timer]; exact hk.noHoldTimer
    aligned := by rw [rx, config, state]; exact hk.aligned
    assembly := by rw [rx, state]; exact hk.assembly
    unexamined := by rw [rx, examines]; exact hk.unexamined }

/-- A link with an empty list and every timer of the law stopped, its receiver in HUNT. -/
theorem Link.orderly_of_empty {k : Link} (list : k.tx.retransmit = []) (next : k.tx.nextSend = k.tx.oldest)
    (ack : k.tx.ackTimer = .stopped) (hold : k.tx.peerHold = false) (holdTimer : k.control.peerHoldTimer = .stopped)
    (hunt : k.rx.alignment = .hunt) (assembly : k.rx.assembly = none)
    (silence : k.examines = false → k.rx.silenceTimer = .stopped) : k.Orderly where
  consecutive := by rw [list]; trivial
  nextSend := by rw [list, next]; simp
  sentFirst _ := by rw [list]; exact .nil
  emptyList _ := list
  ackTimer := by rw [list, ack]; simp [Timer.suits, anySent]
  noHold _ := hold
  noHoldTimer := by simp [holdTimer]
  aligned h := by rw [hunt] at h; cases h
  assembly h := by rw [assembly] at h; cases h
  unexamined h := ⟨hunt, silence h⟩

/-- The link after go-back: every frame unsent, the retry count raised, the ack timer stopped (R48). -/
def Link.goneBack (k : Link) : Link :=
  { k with tx := { k.tx with
      retransmit := k.tx.retransmit.map fun f => { f with sent := false }
      retryCount := k.tx.retryCount + 1
      ackTimer := .stopped } }

/-- The link after line loss, as far as its receiver goes: in HUNT with nothing under assembly, the silence timer started
again (R63, R64). -/
def Link.misaligned (k : Link) : Link :=
  Link.restartSilence
    { k with rx := { k.rx with alignment := .hunt, huntRun := 0, malformedRun := 0, assembly := none } }

theorem LinkState.carrying_imp_running {x : LinkState} (h : x.carrying = true) : x.running = true :=
  x.running_of_carrying (x.carrying_iff.1 h)

namespace Link.Orderly

variable {k : Link} (hk : k.Orderly)
include hk

/-- An ALIGNED receiver examines the line (R61, R62). -/
theorem examines_of_aligned (h : k.rx.alignment = .aligned) : k.examines = true := by
  rw [← Bool.not_eq_false]
  intro hn
  rw [(hk.unexamined hn).1] at h
  cases h

/-- No frame is under assembly on a link that is neither UP nor DRAINING (R67). -/
theorem assembly_eq_none (h : k.control.state.carrying = false) : k.rx.assembly = none := by
  rw [← Option.not_isSome_iff_eq_none]
  intro ha
  rw [(hk.assembly ha).2] at h
  cases h

/-! ## Transmitter -/

/-- The frames' marks change, and the ack timer with them; the peer hold and the sequence values stay. -/
theorem remark {fs : List Frame} (h : fs.map Frame.seq = k.tx.retransmit.map Frame.seq)
    (sent : k.config.mode = .normal → SentFirst fs) {t : Timer}
    (timer : t.suits k.config.mode (anySent fs) k.tx.peerHold = true) (n : Nat) (o : Output) :
    Orderly { k with tx := { k.tx with retransmit := fs, ackTimer := t, retryCount := n, output := o } } :=
  { hk with
    consecutive := (framesFrom_congr h _).2 hk.consecutive
    nextSend := by
      have length := congrArg List.length h
      simp only [List.length_map] at length
      simpa [length] using hk.nextSend
    sentFirst := sent
    emptyList := fun hc => by
      rw [hk.emptyList hc] at h
      exact List.map_eq_nil_iff.1 h
    ackTimer := timer }

theorem oldest_after {gone rest : List Frame} (h : k.tx.retransmit = gone ++ rest) :
    framesFrom ((rest.head?.map Frame.seq).getD k.tx.nextSend) rest ∧
      k.tx.nextSend = (rest.head?.map Frame.seq).getD k.tx.nextSend + BitVec.ofNat 6 rest.length := by
  have consecutive := hk.consecutive
  rw [h, framesFrom_append] at consecutive
  cases rest with
  | nil => simp [framesFrom]
  | cons f fs =>
    obtain ⟨-, seq, behind⟩ := consecutive
    refine ⟨⟨rfl, by simpa [seq] using behind⟩, ?_⟩
    rw [hk.nextSend, h, List.length_append, BitVec.ofNat_add, ← BitVec.add_assoc, ← seq]
    rfl

theorem acknowledge (a : Seq) : (k.acknowledge a).Orderly := by
  unfold Link.acknowledge
  dsimp only
  split
  · exact hk
  · have split := List.takeWhile_append_dropWhile (p := fun f => before f.seq a) (l := k.tx.retransmit)
    have suffix := List.dropWhile_suffix (l := k.tx.retransmit) fun f => before f.seq a
    obtain ⟨consecutive, nextSend⟩ := hk.oldest_after split.symm
    exact { hk with
      consecutive, nextSend
      sentFirst := fun hm => (hk.sentFirst hm).sublist suffix.sublist
      emptyList := fun hc => List.suffix_nil.1 (hk.emptyList hc ▸ suffix)
      ackTimer := Timer.suits_progress hk.ackTimer _ fun h => by
        simp only [anySent, List.any_eq_true] at h ⊢
        obtain ⟨f, hf, hs⟩ := h
        exact ⟨f, suffix.subset hf, hs⟩ }

theorem setPeerHold (hc : k.control.state.carrying = true) (b : Bool) : (k.setPeerHold b).Orderly :=
  { hk with
    ackTimer := Timer.suits_hold hk.ackTimer b
    noHold := fun h => by rw [show k.control.state.carrying = false from h] at hc; cases hc
    noHoldTimer := by simp [Link.setPeerHold, hc] }

theorem goneBack : k.goneBack.Orderly := by
  have none : anySent (k.tx.retransmit.map fun f => { f with sent := false }) = false := by simp [anySent]
  exact hk.remark (by simp) (fun _ => sentFirst_of_noneSent none) (by rw [none, Timer.suits_noneSent]) _ _

/-- A frame starts where, in NORMAL mode, the peer hold is clear (R39, R44, R49). -/
theorem startFrame (hp : k.config.mode = .normal → k.tx.peerHold = false) : k.startFrame.Orderly := by
  unfold Link.startFrame
  split
  · exact hk
  next f hf =>
    obtain ⟨pre, post, split, ahead, unsent⟩ := exists_split_of_find?_unsent hf
    have marked := markFirstUnsent_split pre f post ahead unsent
    rw [← split] at marked
    have sent : anySent (markFirstUnsent k.tx.retransmit) = true := by simp [marked, anySent]
    refine hk.remark (markFirstUnsent_map_seq _) (fun hm => ?_) ?_ _ _
    · have first := hk.sentFirst hm
      rw [split] at first
      rw [marked]
      exact first.mark ahead unsent rfl
    · have timer := hk.ackTimer
      rw [sent]
      cases hm : k.config.mode with
      | loop =>
        rw [hm, Timer.suits_loop] at timer
        simp [timer, Timer.suits]
      | normal =>
        cases hs : anySent k.tx.retransmit with
        | false => simp [Timer.suits, hp hm]
        | true => simpa [hm, hs] using timer

theorem chooseSymbol : k.chooseSymbol.Orderly := by
  unfold Link.chooseSymbol
  split
  · exact { hk with }
  · split
    next hs =>
      refine hk.startFrame fun hm => ?_
      simp only [Link.mayStartFrame, Link.peerHold, hm, Bool.and_eq_true] at hs
      simpa using hs.1.2
    next => exact { hk with }

theorem choicePoint (nodeId : Byte) : (k.choicePoint nodeId).Orderly := by
  unfold Link.choicePoint
  split
  · exact hk.chooseSymbol
  · exact hk.chooseSymbol
  · exact { hk with }
  · exact { hk with }
  · exact hk
  · exact hk

theorem loopStart : k.loopStart.Orderly := by
  unfold Link.loopStart
  split
  next h => exact hk.startFrame fun hm => by rw [h.1] at hm; cases hm
  next => exact hk

/-- A frame built enters unsent at the tail of the list of an UP or DRAINING link (R32). -/
theorem append (hc : k.control.state.carrying = true) {f : Frame} (seq : f.seq = k.tx.nextSend) (unsent : f.sent = false)
    (capture : CaptureBlock) (conflict : ConflictUnit) : Orderly { k with
      capture, conflict, tx := { k.tx with retransmit := k.tx.retransmit ++ [f], nextSend := k.tx.nextSend + 1 } } :=
  { hk with
    consecutive := (framesFrom_append _ _ _).2 ⟨hk.consecutive, seq.trans hk.nextSend, trivial⟩
    nextSend := by
      rw [List.length_append, BitVec.ofNat_add, ← BitVec.add_assoc, ← hk.nextSend]
      rfl
    sentFirst := fun hm => List.pairwise_append.2
      ⟨hk.sentFirst hm, List.pairwise_singleton _ _, fun _ _ g hg => by simp [List.mem_singleton.1 hg, unsent]⟩
    emptyList := fun h => by rw [show k.control.state.carrying = false from h] at hc; cases hc
    ackTimer := by
      have same : anySent (k.tx.retransmit ++ [f]) = anySent k.tx.retransmit := by simp [anySent, unsent]
      rw [same]
      exact hk.ackTimer }

/-! ## Receiver -/

theorem restartSilence (h : k.examines = true) : k.restartSilence.Orderly :=
  { hk with unexamined := fun hn => by rw [show k.examines = false from hn] at h; cases h }

theorem requestNak : k.requestNak.Orderly := by
  unfold Link.requestNak
  split
  · exact hk
  · exact { hk with }

theorem dropAssembly : Orderly { k with rx := { k.rx with assembly := none } } := { hk with assembly := nofun }

theorem damage : k.damage.Orderly := requestNak hk.dropAssembly

theorem damageAssembly : k.damageAssembly.Orderly := by
  unfold Link.damageAssembly
  split
  · exact hk.damage
  · exact hk

theorem assemble (ha : k.rx.alignment = .aligned) (hc : k.control.state.carrying = true) (asm : Assembly) :
    Orderly { k with rx := { k.rx with assembly := some asm } } := { hk with assembly := fun _ => ⟨ha, hc⟩ }

theorem beginFrame (ha : k.rx.alignment = .aligned) (hc : k.control.state.carrying = true) (seq seen : Seq) (count : Nat)
    (p : Payload) : (k.beginFrame seq seen count p).Orderly := by
  unfold Link.beginFrame
  split
  · exact hk.damage
  · exact hk.assemble ha hc _

/-- The third IDLE or HELLO in a row at a receiver that examines the line (R62, R123). -/
theorem align (h : k.examines = true) : k.align.Orderly := by
  have carrying : k.align.control.state.carrying = k.control.state.carrying := by
    unfold Link.align
    dsimp only
    split
    next hh => rw [hh]; rfl
    next => rfl
  simp only [Link.examines, Bool.and_eq_true, decide_eq_true_eq] at h
  obtain ⟨normal, running⟩ := h
  have past : k.align.control.state = .training ∨ k.align.control.state.carrying = true := by
    revert running
    unfold Link.align
    cases k.control.state <;> simp [LinkState.running, LinkState.carrying]
  have examined : k.align.examines = true := by
    have running' : k.align.control.state.running = true := by
      rcases past with hp | hp
      · rw [hp]; rfl
      · exact LinkState.carrying_imp_running hp
    simp only [Link.examines, running', Bool.and_true, decide_eq_true_eq]
    exact normal
  exact { hk with
    emptyList := fun hc => hk.emptyList (carrying ▸ hc)
    noHold := fun hc => hk.noHold (carrying ▸ hc)
    noHoldTimer := by rw [carrying]; exact hk.noHoldTimer
    aligned := fun _ => ⟨normal, past⟩
    assembly := nofun
    unexamined := fun hn => by rw [hn] at examined; cases examined }

theorem misaligned (h : k.examines = true) : k.misaligned.Orderly :=
  { hk with
    aligned := nofun
    assembly := nofun
    unexamined := fun hn => by rw [show k.examines = false from hn] at h; cases h }

/-! ## Link control -/


end Link.Orderly
end Sys2Proof.Machine
end

section
/-! SUPPORT. Link control at one link, and what leaves the line of every link as it is: one lemma for each operation that
changes neither a transmitter nor a receiver. -/

namespace Sys2Proof.Machine

namespace Link

/-! ## Link control -/

/-- The peer-hold-limit timer follows the hold flag of the link's own queue on an UP or DRAINING link alone (R55). -/
theorem loopTimer_of_idle {k : Link} (hc : k.control.state.carrying = false) (b : Bool) :
    k.loopTimer b = k.control.peerHoldTimer := by
  rw [Bool.eq_false_iff, Ne, LinkState.carrying_iff] at hc
  rw [loopTimer, if_neg fun h => hc h.2]

theorem loopTimer_line (k : Link) (b : Bool) :
    (k.control.state.carrying || decide (k.loopTimer b = .stopped)) =
      (k.control.state.carrying || decide (k.control.peerHoldTimer = .stopped)) := by
  cases hc : k.control.state.carrying with
  | true => rfl
  | false => simp only [loopTimer_of_idle hc]

theorem evalHold_line (k : Link) : k.evalHold.line = k.line := by
  rw [evalHold_eq]
  exact congrArg (fun timed => (k.config, k.control.state, k.tx, k.rx, timed)) (k.loopTimer_line _)

theorem purged_line (k : Link) (t : Tag) : (k.purged t).line = k.line :=
  congrArg (fun timed => (k.config, k.control.state, k.tx, k.rx, timed)) (k.loopTimer_line _)

theorem goDown_orderly (k : Link) (r : Option FaultReason) : (k.goDown r).Orderly := by
  rw [goDown_eq]
  exact orderly_of_empty rfl rfl rfl rfl rfl rfl rfl fun _ => rfl

theorem reset_orderly (cfg : LinkConfig) : (Link.reset cfg).Orderly :=
  orderly_of_empty rfl rfl rfl rfl rfl rfl rfl fun _ => rfl

namespace Orderly

variable {k : Link} (hk : k.Orderly)
include hk

theorem noHoldTimer_eq (hc : k.control.state.carrying = false) : k.control.peerHoldTimer = .stopped := by
  simpa [hc] using hk.noHoldTimer

theorem ackTimer_of_idle (hc : k.control.state.carrying = false) : k.tx.ackTimer = .stopped := by
  have timer := hk.ackTimer
  rwa [hk.emptyList hc, show anySent [] = false from rfl, Timer.suits_noneSent] at timer

/-- A link that does not run takes a new configuration (R119). -/
theorem configure (hrun : k.control.state.running = false) (cfg : LinkConfig) : (k.configure cfg).Orderly := by
  have idle : k.control.state.carrying = false := LinkState.carrying_of_not_running (by simp [hrun])
  have receiver := hk.unexamined (by simp [examines, hrun])
  have empty := hk.nextSend
  rw [hk.emptyList idle] at empty
  have configured : Orderly { k with config := cfg } :=
    orderly_of_empty (hk.emptyList idle) (by simpa using empty) (hk.ackTimer_of_idle idle) (hk.noHold idle)
      (hk.noHoldTimer_eq idle) receiver.1 (hk.assembly_eq_none idle) fun _ => receiver.2
  exact configured.of_line (evalHold_line _)

/-- A DRAINING link keeps the list and the timers it had in UP (R128). -/
theorem drain (hup : k.control.state = .up) : Orderly { k with control := { k.control with state := .draining } } :=
  { hk with
    emptyList := nofun
    noHold := nofun
    noHoldTimer := rfl
    aligned := fun ha => ⟨(hk.aligned ha).1, .inr rfl⟩
    assembly := fun ha => ⟨(hk.assembly ha).1, rfl⟩
    unexamined := fun hn => hk.unexamined (by simpa [examines, hup, LinkState.running] using hn) }

/-- A link that is neither UP nor DRAINING enters UP with an empty list and its sequence values 0 (R59, R125, R131). -/
theorem startUp (hc : k.control.state.carrying = false) (rank : Rank) (cls : FrameClass) : (k.startUp rank cls).Orderly where
  consecutive := by
    rw [show (k.startUp rank cls).tx.retransmit = [] from hk.emptyList hc]
    trivial
  nextSend := by
    rw [show (k.startUp rank cls).tx.retransmit = [] from hk.emptyList hc]
    rfl
  sentFirst _ := by
    rw [show (k.startUp rank cls).tx.retransmit = [] from hk.emptyList hc]
    exact .nil
  emptyList := nofun
  ackTimer := by
    rw [show (k.startUp rank cls).tx.retransmit = [] from hk.emptyList hc]
    exact Timer.suits_noneSent.2 rfl
  noHold := nofun
  noHoldTimer := rfl
  aligned ha := ⟨(hk.aligned ha).1, .inr rfl⟩
  assembly ha := ⟨(hk.assembly ha).1, rfl⟩
  unexamined hn := hk.unexamined (by
    have loop : decide (k.config.mode = .normal) = false := (Bool.and_true _).symm.trans hn
    rw [examines, loop, Bool.false_and])

/-- HUNTING begins on a link in NORMAL mode that does not run, with a symbol on its line (R121). -/
theorem hunt (hc : k.control.state.carrying = false) (normal : k.config.mode = .normal) (training silence : Timer)
    (o : Output) : Orderly { k with
      control := { k.control with state := .hunting, faultReason := none, peer := none, trainingTimer := training }
      rx := { k.rx with alignment := .hunt, huntRun := 0, silenceTimer := silence }
      tx := { k.tx with output := o } } := by
  have empty := hk.nextSend
  rw [hk.emptyList hc] at empty
  exact orderly_of_empty (hk.emptyList hc) (by simpa using empty) (hk.ackTimer_of_idle hc) (hk.noHold hc)
    (hk.noHoldTimer_eq hc) rfl (hk.assembly_eq_none hc) fun hn => by simp [examines, normal, LinkState.running] at hn

/-- A TRAINING link returns to HUNTING with its receiver in HUNT (R123). -/
theorem unlearn (training : k.control.state = .training) (hunt : k.rx.alignment = .hunt) : Orderly { k with
    control := { k.control with state := .hunting, peer := none } } := by
  have idle : k.control.state.carrying = false := by rw [training]; rfl
  exact { hk with
    emptyList := fun _ => hk.emptyList idle
    noHold := fun _ => hk.noHold idle
    noHoldTimer := decide_eq_true (hk.noHoldTimer_eq idle)
    aligned := fun ha => absurd ha (by simp [hunt])
    assembly := fun ha => absurd ha (by simp [hk.assembly_eq_none idle])
    unexamined := fun hn => hk.unexamined (by simpa [examines, training, LinkState.running] using hn) }

theorem tick : k.tick.Orderly :=
  { hk with
    ackTimer := by
      have timer := hk.ackTimer
      rw [← Timer.suits_tick] at timer
      exact timer
    noHoldTimer := by
      cases hc : k.control.state.carrying with
      | true => simp [Link.tick, hc]
      | false => simp [Link.tick, hk.noHoldTimer_eq hc, Timer.tick]
    unexamined := fun hn => by
      obtain ⟨hunt, silence⟩ := hk.unexamined hn
      exact ⟨hunt, by simp only [Link.tick, silence]; rfl⟩ }

end Orderly
end Link

/-! ## The lines of the part -/

/-- The line of each link. -/
def State.line (s : State) (l : LinkId) : LinkConfig × LinkState × Transmitter × Receiver × Bool := (s.link l).line

theorem State.line_of_links {s t : State} (a : t.a = s.a) (b : t.b = s.b) : t.line = s.line := by
  funext l
  cases l
  · exact congrArg Link.line a
  · exact congrArg Link.line b

theorem State.modLink_line {s : State} {l : LinkId} {f : Link → Link} (h : (f (s.link l)).line = (s.link l).line) :
    (s.modLink l f).line = s.line := by
  funext l'
  by_cases hl : l' = l
  · subst hl
    simpa [State.line] using h
  · rw [State.line, State.modLink_link_ne _ hl, State.line]

namespace State

variable (s : State)

@[simp] theorem raise_line (e : Event) : (s.raise e).line = s.line := by
  rw [raise_eq]
  exact line_of_links rfl rfl

@[simp] theorem modWindow_line (i : Index) (f : Window → Window) : (s.modWindow i f).line = s.line := rfl

@[simp] theorem setWindow_line (i : Index) (e : Option Window) : (s.setWindow i e).line = s.line := rfl

@[simp] theorem modWindows_line (f : Window → Window) : (s.modWindows f).line = s.line :=
  funext fun l => congrArg Link.line (modWindows_link s f l)

@[simp] theorem respond_line (code : Byte) (st : Status) (d : List Byte) : (s.respond code st d).line = s.line := by
  rw [respond_eq]
  exact line_of_links rfl rfl

@[simp] theorem markTaken_line : s.markTaken.line = s.line := by
  rw [markTaken_eq]
  exact line_of_links rfl rfl

@[simp] theorem driveIntn_line : s.driveIntn.line = s.line := line_of_links rfl rfl

/-! ## Notices, sides and sweeps -/

@[simp] theorem setFlushDue_line (l : LinkId) : (s.setFlushDue l).line = s.line := modLink_line rfl

@[simp] theorem setNotice_line (i : Index) : (s.setNotice i).line = s.line := by
  unfold setNotice
  split
  · split <;> simp
  · rfl

@[simp] theorem abortSweep_line (l : LinkId) (c : Cause) : (s.abortSweep l c).line = s.line := by
  unfold abortSweep
  split
  · rfl
  next sw _ =>
    have stopped : (s.modLink l Link.stopSweep).line = s.line := modLink_line rfl
    dsimp only
    split_ifs <;> simp only [setNotice_line, raise_line, modWindow_line] <;> exact stopped

@[simp] theorem localStale_line (i : Index) (c : Cause) : (s.localStale i c).line = s.line := by
  unfold localStale
  split
  · rfl
  · split
    · dsimp only
      split <;> simp
    · simp
    · rfl
    · rfl

@[simp] theorem importStale_line (i : Index) (c : Cause) : (s.importStale i c).line = s.line := by
  unfold importStale
  split
  · rfl
  · split <;> simp

@[simp] theorem applyControl_line (l : LinkId) (r : Record) : (s.applyControl l r).line = s.line := by
  unfold applyControl
  split
  · rfl
  · split
    · simp
    · split <;> simp
    · simp
    · rfl

/-! ## Capture -/

@[simp] theorem noteCapture_line (l : LinkId) (w : Window) (o : Offset) : (s.noteCapture l w o).line = s.line :=
  modLink_line (by split <;> rfl)

@[simp] theorem captureWrite_line (w : Window) (o : Offset) (m : LaneMask) (d : Word) :
    (s.captureWrite w o m d).line = s.line := by
  unfold captureWrite
  exact (noteCapture_line _ _ _ _).trans (modLink_line (by split <;> rfl))

@[simp] theorem capturePlaceholder_line (l : LinkId) (w : Window) (o : Offset) :
    (s.capturePlaceholder l w o).line = s.line := (noteCapture_line _ _ _ _).trans (modLink_line rfl)

@[simp] theorem removePlaceholder_line (l : LinkId) : (s.removePlaceholder l).line = s.line :=
  modLink_line (by split <;> rfl)

/-! ## The host port -/

@[simp] theorem completeHost_line (fault : Bool) (data : Option Word) : (s.completeHost fault data).line = s.line :=
  line_of_links rfl rfl

@[simp] theorem claimHost_line (h : Handling) : (s.claimHost h).line = s.line := line_of_links rfl rfl

@[simp] theorem roomTest_line : s.roomTest.line = s.line := by
  rw [roomTest_eq]
  exact line_of_links rfl rfl

@[simp] theorem exportWrite_line (i : Index) (w : Window) : (s.exportWrite i w).line = s.line := by
  unfold exportWrite
  split
  · simp
  · simp
  all_goals split <;> simp

@[simp] theorem proceedHost_line : s.proceedHost.line = s.line := by
  unfold proceedHost
  split
  · split
    · split <;> simp
    all_goals simp
  · simp

@[simp] theorem waitDrain_line (w : Window) (o : Offset) : (s.waitDrain w o).line = s.line := by
  have marked : (s.modLink w.link fun k =>
    { k with apply := { k.apply with queue := markNewest w.tag o k.apply.queue } }).line = s.line := modLink_line rfl
  exact (line_of_links rfl rfl).trans marked

@[simp] theorem arrive_line (acc : Access) : (s.arrive acc).line = s.line := by
  unfold arrive
  split
  · simp
  · split
    · exact line_of_links rfl rfl
    · split
      · rfl
      · dsimp only
        split
        · exact (waitDrain_line _ _ _).trans (line_of_links rfl rfl)
        · exact (proceedHost_line _).trans (line_of_links rfl rfl)

@[simp] theorem endDrain_line : s.endDrain.line = s.line := by
  unfold endDrain
  split <;> simp

@[simp] theorem forgetWindow_line (i : Index) : (s.forgetWindow i).line = s.line := by
  have cleared (t : State) (l : LinkId) : (t.modLink l fun k =>
    { k with apply := { k.apply with queue := clearDrainPoint k.apply.queue } }).line = t.line := modLink_line rfl
  rcases s.forgetWindow_eq i with h | h <;> rw [h]
  · exact line_of_links rfl rfl
  · exact (line_of_links rfl rfl).trans ((cleared _ .b).trans (cleared s .a))

@[simp] theorem holdExpiry_line : s.holdExpiry.line = s.line := by
  unfold holdExpiry
  split <;> simp

@[simp] theorem softResetHost_line : s.softResetHost.line = s.line := by
  rw [softResetHost_eq]
  exact line_of_links rfl rfl

/-! ## The apply queue -/

@[simp] theorem offerHorizon_line (l : LinkId) (v : Seq) : (s.offerHorizon l v).line = s.line := by
  rw [offerHorizon_eq]
  exact modLink_line rfl

@[simp] theorem offerHead_line (l : LinkId) : (s.offerHead l).line = s.line := by
  unfold offerHead
  split <;> simp

@[simp] theorem offerIdle_line (l : LinkId) (ack next : Seq) : (s.offerIdle l ack next).line = s.line := by
  unfold offerIdle
  dsimp only
  split <;> simp

@[simp] theorem popApply_line (l : LinkId) : (s.popApply l).line = s.line := by
  unfold popApply
  rw [endDrain_line, offerHead_line]
  exact modLink_line (Link.evalHold_line _)

@[simp] theorem purgeApply_line (l : LinkId) (t : Tag) : (s.purgeApply l t).line = s.line := by
  rw [purgeApply_eq, endDrain_line]
  exact modLink_line (Link.purged_line _ _)

@[simp] theorem discardHead_line (l : LinkId) (t : Tag) (e : Option Cause) : (s.discardHead l t e).line = s.line := by
  unfold discardHead
  cases e <;> simp

@[simp] theorem decideControl_line (l : LinkId) : (s.decideControl l).line = s.line := by
  unfold decideControl
  split <;> simp

/-! ## The memory port -/

@[simp] theorem countHostGrant_line : s.countHostGrant.line = s.line :=
  (modLink_line rfl).trans (modLink_line rfl)

@[simp] theorem grantHost_line : s.grantHost.line = s.line := by
  have granted (x : Option PortTransaction) (y : HostPort) :
      ({ s.countHostGrant with port := x, host := y } : State).line = s.line :=
    (line_of_links rfl rfl).trans s.countHostGrant_line
  unfold grantHost
  split
  · rfl
  · dsimp only
    split
    · exact (captureWrite_line _ _ _ _ _).trans (granted _ _)
    · exact granted _ _

@[simp] theorem grantSweep_line (l : LinkId) : (s.grantSweep l).line = s.line := by
  unfold grantSweep
  split
  · rfl
  · exact (line_of_links rfl rfl).trans ((modLink_line rfl).trans (capturePlaceholder_line _ _ _ _))

@[simp] theorem grantApply_line (l : LinkId) (i : Index) (addr : WordAddr) (m : LaneMask) (d : Word) :
    (s.grantApply l i addr m d).line = s.line := (line_of_links rfl rfl).trans (modLink_line rfl)

theorem arbitrate_line (fuel : Nat) (s : State) : (s.arbitrate fuel).line = s.line := by
  induction fuel generalizing s with
  | zero => rfl
  | succ fuel ih =>
    unfold arbitrate
    split
    · rfl
    · split
      · rfl
      · simp
      · simp
      · split
        · split <;> simp [ih]
        · rfl

@[simp] theorem arbiterChoice_line : s.arbiterChoice.line = s.line := arbitrate_line _ s

@[simp] theorem completeHostAccess_line (kind : AccessKind) (status : MemStatus) :
    (s.completeHostAccess kind status).line = s.line := by
  unfold completeHostAccess
  cases status with
  | ok d => simp
  | fault =>
    dsimp only
    split <;> simp

@[simp] theorem completeApply_line (l : LinkId) (status : MemStatus) : (s.completeApply l status).line = s.line := by
  unfold completeApply
  split
  · rfl
  · simp
  · cases status <;> simp

@[simp] theorem sweepReadOk_line (l : LinkId) (sw : ActiveSweep) (w : Window) (d : Word) :
    (s.sweepReadOk l sw w d).line = s.line :=
  (modLink_line rfl).trans (modLink_line rfl)

@[simp] theorem completeSweep_line (l : LinkId) (status : MemStatus) : (s.completeSweep l status).line = s.line := by
  have done : (s.modLink l fun k => { k with sweep := { k.sweep with read := .none } }).line = s.line := modLink_line rfl
  unfold completeSweep
  dsimp only
  split
  · exact done
  · simp [done]
  · simp [done]
  · split <;> simp [done]

@[simp] theorem completeOwner_line (p : PortTransaction) (status : MemStatus) :
    (s.completeOwner p status).line = s.line := by
  unfold completeOwner
  split <;> simp

@[simp] theorem complete_line (p : PortTransaction) (status : MemStatus) : (s.complete p status).line = s.line := by
  have freed : ({ s with port := none } : State).line = s.line := line_of_links rfl rfl
  simp [complete, freed]

/-! ## Sweeps and requests -/

@[simp] theorem queueOpen_line (l : LinkId) : (s.queueOpen l).line = s.line := by
  unfold queueOpen
  split
  · exact modLink_line rfl
  · rfl

@[simp] theorem queueClose_line (l : LinkId) : (s.queueClose l).line = s.line := by
  unfold queueClose
  split
  · rw [raise_line, modWindow_line]
    exact modLink_line rfl
  · rfl

@[simp] theorem startSweep_line (i : Index) (w : Window) : (s.startSweep i w).line = s.line := by
  have started : ((s.modWindow i (·.withExport .sweeping)).modLink w.link fun k => { k with sweep := { k.sweep with
    active := some { phase := .opening, window := i, next := 0 } } }).line = s.line := modLink_line rfl
  rw [startSweep, holdBecomesCapturing_eq]
  exact (line_of_links rfl rfl).trans ((queueOpen_line _ _).trans started)

@[simp] theorem clearWindow_line (i : Index) (w : Window) : (s.clearWindow i w).line = s.line := by
  have released : (s.releaseWindow i w.link).line = s.line := by
    unfold releaseWindow
    rw [forgetWindow_line, setWindow_line, offered_eq]
    exact (line_of_links rfl rfl).trans (modLink_line rfl)
  have cleared (f : Link → Link) (h : ∀ k, (f k).line = k.line) :
      ((s.releaseWindow i w.link).modLink w.link f).line = s.line := (modLink_line (h _)).trans released
  unfold clearWindow
  dsimp only
  rw [abortSweep_cleared]
  split
  · exact (purgeApply_line _ _ _).trans (cleared _ fun _ => rfl)
  · exact cleared _ fun _ => rfl

@[simp] theorem respondOk_line (code : Byte) : (s.respondOk code).line = s.line := respond_line _ _ _ _

@[simp] theorem refuse_line (code : Byte) (r : Reason) : (s.refuse code r).line = s.line := respond_line _ _ _ _

theorem partConfigSet_line (f : PartConfigFields) : (s.partConfigSet f).line = s.line := by
  unfold partConfigSet
  split
  · simp
  next cfg _ =>
    have configured : ({ s with config := cfg } : State).line = s.line := line_of_links rfl rfl
    split <;> simp [configured]

theorem windowSet_line (index : Byte) (f : WindowFields) : (s.windowSet index f).line = s.line := by
  unfold windowSet
  repeat' split
  all_goals simp

theorem windowGet_line (index : Byte) : (s.windowGet index).line = s.line := by
  unfold windowGet
  split <;> simp

theorem linkGet_line (link : Byte) : (s.linkGet link).line = s.line := by
  unfold linkGet
  split <;> simp

theorem flush_line (link : Byte) : (s.flush link).line = s.line := by
  unfold flush
  split
  · simp
  · split <;> simp

theorem eventPop_line : s.eventPop.line = s.line := by
  unfold eventPop
  split
  · simp
  next e rest _ =>
    have popped : ({ s with events := rest } : State).line = s.line := line_of_links rfl rfl
    simp [popped]

theorem eventClear_line : s.eventClear.line = s.line := by
  have emptied : ({ s with events := [], overflow := false } : State).line = s.line := line_of_links rfl rfl
  simp [eventClear, emptied]

theorem badCommand_line (code : Byte) : (s.badCommand code).line = s.line := by
  unfold badCommand
  split <;> simp

end State

end Sys2Proof.Machine
end

section
/-! SUPPORT. Every operation keeps the law of each link, and so does every step (R43, R49, R57, R61, R62, R67). -/

namespace Sys2Proof.Machine

/-- Both links keep the sequence, ack-timer and receiver laws. -/
def State.Orderly (s : State) : Prop := ∀ l, (s.link l).Orderly

theorem State.orderly_iff (s : State) : s.Orderly ↔ s.SequenceLaw ∧ s.AckTimerLaw ∧ s.ReceiverLaw := by
  constructor
  · intro h
    obtain ⟨sequenceA, ackA, receiverA⟩ := s.a.orderly_iff.1 (h .a)
    obtain ⟨sequenceB, ackB, receiverB⟩ := s.b.orderly_iff.1 (h .b)
    exact ⟨⟨sequenceA, sequenceB⟩, ⟨ackA, ackB⟩, ⟨receiverA, receiverB⟩⟩
  · rintro ⟨sequence, ack, receiver⟩ l
    cases l
    · exact s.a.orderly_iff.2 ⟨sequence.a, ack.a, receiver.a⟩
    · exact s.b.orderly_iff.2 ⟨sequence.b, ack.b, receiver.b⟩

/-- Damage to a frame under assembly leaves link control and the alignment as they are (R69). -/
theorem Link.damageAssembly_frame (k : Link) :
    k.damageAssembly.control = k.control ∧ k.damageAssembly.rx.alignment = k.rx.alignment := by
  unfold Link.damageAssembly Link.damage Link.requestNak
  split
  · split <;> exact ⟨rfl, rfl⟩
  · exact ⟨rfl, rfl⟩

namespace State.Orderly

variable {s t : State} (hs : s.Orderly)
include hs

theorem congr (h : t.line = s.line) : t.Orderly := fun l => (hs l).of_line (congrFun h l)

theorem modLink {l : LinkId} {f : Link → Link} (h : (s.link l).Orderly → (f (s.link l)).Orderly) :
    (s.modLink l f).Orderly := by
  intro l'
  by_cases hl : l' = l
  · subst hl
    rw [State.modLink_link]
    exact h (hs l')
  · rw [State.modLink_link_ne _ hl]
    exact hs l'

/-! ## Frame build and the apply queue -/

theorem frameBuild (l : LinkId) : (s.frameBuild l).Orderly := by
  unfold State.frameBuild
  split
  · split
    next h =>
      simp only [State.buildReady, Bool.and_eq_true, decide_eq_true_eq] at h
      obtain ⟨⟨⟨⟨⟨carrying, -⟩, -⟩, -⟩, -⟩, -⟩ := h
      have cleared (is : List Index) : (s.clearNotices is).Orderly := hs.congr (by
        rw [State.clearNotices_eq]
        exact State.line_of_links rfl rfl)
      have link (is : List Index) : (s.clearNotices is).link l = s.link l := by
        rw [State.clearNotices_eq]
        cases l <;> rfl
      unfold State.buildFrame
      refine (cleared _).modLink fun hk => ?_
      rw [link] at hk ⊢
      exact hk.append carrying rfl rfl _ _
    next => exact hs
  · exact hs

theorem offerFrame (l : LinkId) (seen : Seq) (items : List Record) : (s.offerFrame l seen items).Orderly := by
  have taken : (s.modLink l fun k => { k.takeRecords seen items with rx := { (k.takeRecords seen items).rx with
      receiveExpected := (k.takeRecords seen items).rx.receiveExpected + 1, nakSent := false } }).Orderly :=
    hs.modLink fun hk => by
      have evaluated : ((s.link l).takeRecords seen items).Orderly := hk.of_line (Link.evalHold_line _)
      exact { evaluated with }
  unfold State.offerFrame
  dsimp only
  split
  · split
    · exact State.Orderly.congr taken (State.offerHead_line _ _)
    · exact taken
  · exact hs

/-! ## Links -/

theorem enterDown (l : LinkId) (r : Option FaultReason) : (s.enterDown l r).Orderly := by
  have down : (s.modLink l (·.goDown r)).Orderly := hs.modLink fun _ => Link.goDown_orderly _ r
  unfold State.enterDown
  cases r <;> exact down.congr (by simp)

theorem faultLink (l : LinkId) (r : FaultReason) : (s.faultLink l r).Orderly := by
  unfold State.faultLink
  split
  · exact hs.enterDown _ _
  · exact hs

theorem enterDraining {l : LinkId} (hup : s.linkState l = .up) : (s.enterDraining l).Orderly :=
  State.Orderly.congr (hs.modLink fun hk => hk.drain hup) (State.abortSweep_line _ _ _)

theorem drainComplete (l : LinkId) : (s.drainComplete l).Orderly := by
  unfold State.drainComplete
  dsimp only
  split
  · exact hs.enterDown _ _
  · exact hs

theorem enterUp {l : LinkId} (h : (s.linkState l).carrying = false) (p : Peer) (hold : Bool) :
    (s.enterUp l p hold).Orderly :=
  State.Orderly.congr (hs.modLink fun hk => (hk.startUp h _ _).setPeerHold rfl hold) (State.raise_line _ _)

theorem enterUpLoop {l : LinkId} (h : (s.linkState l).carrying = false) : (s.enterUpLoop l).Orderly :=
  State.Orderly.congr (hs.modLink fun hk =>
    { hk.startUp h .self (s.link l).config.frameClass with }) (State.raise_line _ _)

theorem enterHunting {l : LinkId} (h : (s.linkState l).carrying = false) (normal : (s.link l).config.mode = .normal) :
    (s.enterHunting l).Orderly := hs.modLink fun hk => hk.hunt h normal _ _ _

theorem disableLink (l : LinkId) (force : Bool) : (s.disableLink l force).Orderly := by
  unfold State.disableLink
  split
  · exact hs
  · exact hs.enterDown _ _
  · exact hs.enterDown _ _
  next hup =>
    split
    · exact (hs.enterDraining hup).enterDown _ _
    · exact hs.enterDraining hup
  · split
    · exact hs.enterDown _ _
    · exact hs
  · exact hs.enterDown _ _

/-! ## The transmitter -/

theorem finish : s.finish.Orderly :=
  State.Orderly.congr (((hs.drainComplete .a).drainComplete .b).modLink (l := .a) (·.loopStart) |>.modLink (l := .b)
    (·.loopStart)) (by rw [State.finish, State.driveIntn_line, State.roomTest_line])

theorem goBack (l : LinkId) : (s.goBack l).Orderly := by
  have back : (s.modLink l Link.goneBack).Orderly := hs.modLink (·.goneBack)
  unfold State.goBack
  dsimp only
  split
  · exact back.faultLink _ _
  · exact back

theorem receiveIdle {l : LinkId} (h : (s.linkState l).carrying = true) (ack : Seq) (hold : Bool) :
    (s.receiveIdle l ack hold).Orderly := by
  have state : ((s.link l).acknowledge ack).control = (s.link l).control := by
    unfold Link.acknowledge
    dsimp only
    split <;> rfl
  exact hs.modLink fun hk => (hk.acknowledge ack).setPeerHold (by rw [state]; exact h) hold

theorem receiveNak (l : LinkId) (expected : Seq) : (s.receiveNak l expected).Orderly := by
  have acked : (s.modLink l (·.acknowledge expected)).Orderly := hs.modLink (·.acknowledge expected)
  unfold State.receiveNak
  dsimp only
  split
  · exact acked.goBack _
  · exact acked

theorem loopDeliver {l : LinkId} (loop : (s.link l).config.mode = .loop) (f : Frame) : (s.loopDeliver l f).Orderly := by
  have ended : (s.modLink l fun k => { k with tx := { k.tx with output := .rest } }).Orderly :=
    hs.modLink fun hk => { hk with }
  unfold State.loopDeliver
  dsimp only
  split
  · exact (ended.modLink (·.acknowledge _)).offerFrame _ _ _
  · refine ended.modLink fun hk => ?_
    have stopped := hk.ackTimer
    rw [State.modLink_link] at hk stopped ⊢
    refine hk.remark ?_ (fun hm => by cases loop.symm.trans hm) ?_ _ _
    · rw [List.map_map]
      refine List.map_congr_left fun g _ => ?_
      simp only [Function.comp]
      split <;> rfl
    · simp only [loop, Timer.suits_loop] at stopped ⊢
      exact stopped

theorem endFrame (l : LinkId) : (s.endFrame l).Orderly := by
  unfold State.endFrame
  split
  · split
    · exact hs.modLink fun hk => Link.Orderly.chooseSymbol { hk with }
    next loop => exact hs.loopDeliver loop _
  · exact hs
  · exact hs

/-! ## The receiver -/

theorem lineLoss {l : LinkId} (h : (s.link l).examines = true) : (s.lineLoss l).Orderly := by
  have lost : (s.modLink l Link.misaligned).Orderly := hs.modLink (·.misaligned h)
  unfold State.lineLoss
  dsimp only
  split
  next training => exact lost.modLink fun hk => hk.unlearn training (by rw [State.modLink_link]; rfl)
  · exact lost.faultLink _ _
  · exact lost.faultLink _ _
  all_goals exact lost

theorem classifyFrame (l : LinkId) (seq seen : Seq) (items : List Record) : (s.classifyFrame l seq seen items).Orderly := by
  unfold State.classifyFrame
  split
  · exact hs.offerFrame _ _ _
  · exact hs
  · exact hs.modLink (·.requestNak)

theorem receiveData (l : LinkId) (p : Payload) : (s.receiveData l p).Orderly := by
  unfold State.receiveData
  split
  · exact hs
  next asm ha =>
    obtain ⟨aligned, carrying⟩ := (hs l).assembly (by rw [ha]; rfl)
    split
    · exact hs.modLink fun hk => hk.assemble aligned carrying _
    · exact hs.modLink (·.damage)
    · exact State.Orderly.classifyFrame (hs.modLink (·.dropAssembly)) _ _ _ _

theorem symbolInTraining {l : LinkId} (h : s.linkState l = .training) (sym : SymbolKind) :
    (s.symbolInTraining l sym).Orderly := by
  have idle : (s.linkState l).carrying = false := by rw [h]; rfl
  unfold State.symbolInTraining
  split
  next id c y =>
    unfold State.helloInTraining
    split
    · exact hs.faultLink _ _
    · have recorded : (s.modLink l fun k => { k with control := { k.control with
          peer := some { id, acceptance := if c then .sixteen else .eight } } }).Orderly := hs.congr (State.modLink_line rfl)
      dsimp only
      split
      · exact recorded.enterUp (by rw [State.modLink_linkState]; exact idle) _ _
      · exact recorded
  · unfold State.idleInTraining
    split
    · exact hs.enterUp idle _ _
    · exact hs
  all_goals exact hs

theorem symbolInUp {l : LinkId} (aligned : (s.link l).rx.alignment = .aligned) (carrying : (s.linkState l).carrying = true)
    (p : Payload) (sym : SymbolKind) : (s.symbolInUp l p sym).Orderly := by
  have damaged := hs.modLink (l := l) (·.damageAssembly)
  obtain ⟨control, alignment⟩ := (s.link l).damageAssembly_frame
  unfold State.symbolInUp
  cases sym with
  | hello id c seenYou =>
    dsimp only
    split
    · exact damaged
    · exact damaged.faultLink _ _
  | idle ack next hold =>
    exact State.Orderly.congr (damaged.receiveIdle (by rw [State.modLink_linkState, control]; exact carrying) ack hold)
      (State.offerIdle_line _ _ _ _)
  | nak expected => exact damaged.receiveNak _ _
  | frameStart seq seen count =>
    exact hs.modLink fun hk => hk.damageAssembly.beginFrame (alignment.trans aligned) (by rw [control]; exact carrying) _ _ _ _
  | data p => exact hs.receiveData _ _
  | malformed => exact hs

theorem alignedSymbol {l : LinkId} (aligned : (s.link l).rx.alignment = .aligned) (p : Payload) (sym : SymbolKind) :
    (s.alignedSymbol l p sym).Orderly := by
  unfold State.alignedSymbol
  split
  next h => exact hs.symbolInTraining h _
  next h => exact hs.symbolInUp aligned (by rw [h]; rfl) _ _
  next h => exact hs.symbolInUp aligned (by rw [h]; rfl) _ _
  all_goals exact hs

theorem malformedSymbol {l : LinkId} (aligned : (s.link l).rx.alignment = .aligned) : (s.malformedSymbol l).Orderly := by
  have damaged := hs.modLink (l := l) (·.damageAssembly)
  unfold State.malformedSymbol
  dsimp only
  split
  · refine damaged.lineLoss ((damaged l).examines_of_aligned ?_)
    rw [State.modLink_link]
    exact (Link.damageAssembly_frame _).2.trans aligned
  · exact damaged.modLink fun hk => { hk with }

theorem huntSymbol {l : LinkId} (h : (s.link l).examines = true) (p : Payload) (sym : SymbolKind) :
    (s.huntSymbol l p sym).Orderly := by
  unfold State.huntSymbol
  split
  · split
    · exact State.Orderly.alignedSymbol (hs.modLink (·.align h)) (by rw [State.modLink_link]; rfl) _ _
    · exact hs.modLink fun hk => { hk with }
  · exact hs.modLink fun hk => { hk with }

theorem receiveSymbol {l : LinkId} (h : (s.link l).examines = true) (sym : Symbol) : (s.receiveSymbol l sym).Orderly := by
  have heard : (if decodeSymbol sym = .malformed then s else s.modLink l Link.restartSilence).Orderly ∧
      ((if decodeSymbol sym = .malformed then s else s.modLink l Link.restartSilence).link l).examines = true := by
    split
    · exact ⟨hs, h⟩
    · exact ⟨hs.modLink (·.restartSilence h), by rw [State.modLink_link]; exact h⟩
  unfold State.receiveSymbol
  dsimp only
  generalize (if decodeSymbol sym = .malformed then s else s.modLink l Link.restartSilence) = u at heard ⊢
  obtain ⟨orderly, examines⟩ := heard
  split
  · exact State.Orderly.huntSymbol orderly examines _ _
  next aligned =>
    split
    · exact State.Orderly.malformedSymbol orderly aligned
    · exact State.Orderly.alignedSymbol (State.Orderly.modLink orderly fun hk => { hk with })
        (by rw [State.modLink_link]; exact aligned) _ _

theorem silenceExpiry {l : LinkId} (h : (s.link l).examines = true) : (s.silenceExpiry l).Orderly := by
  unfold State.silenceExpiry
  split
  · exact hs.modLink fun hk => Link.Orderly.restartSilence { hk with } h
  · exact hs.lineLoss h

/-! ## Requests -/

theorem respondOk (code : Byte) : (s.respondOk code).Orderly := hs.congr (State.respondOk_line _ _)

theorem refuse (code : Byte) (r : Reason) : (s.refuse code r).Orderly := hs.congr (State.refuse_line _ _ _)

theorem linkSet (link : Byte) (f : LinkFields) : (s.linkSet link f).Orderly := by
  unfold State.linkSet
  split
  · exact hs.refuse _ _
  · split
    · exact hs.refuse _ _
    next hrun =>
      split
      · exact hs.refuse _ _
      next cfg _ => exact State.Orderly.respondOk (hs.modLink fun hk => hk.configure (Bool.eq_false_iff.2 hrun) cfg) _

theorem linkEnable (link : Byte) : (s.linkEnable link).Orderly := by
  unfold State.linkEnable
  split
  · exact hs.refuse _ _
  · split
    · exact hs.refuse _ _
    next hrun =>
      have idle := LinkState.carrying_of_not_running hrun
      split
      · exact hs.refuse _ _
      · dsimp only
        split
        next normal => exact ((hs.enterHunting idle normal).respondOk _).finish
        next => exact ((hs.enterUpLoop idle).respondOk _).finish

theorem linkDisable (link force : Byte) : (s.linkDisable link force).Orderly := by
  unfold State.linkDisable
  split
  · exact hs.refuse _ _
  · exact ((hs.disableLink _ _).respondOk _).finish

theorem windowClear (index : Byte) : (s.windowClear index).Orderly := by
  unfold State.windowClear
  split
  · exact hs.refuse _ _
  · split
    · exact hs.respondOk _
    · exact ((hs.congr (State.clearWindow_line _ _ _)).respondOk _).finish

theorem sweepStart (index : Byte) : (s.sweepStart index).Orderly := by
  unfold State.sweepStart
  split
  · exact hs.refuse _ _
  · split
    · exact hs.refuse _ _
    · split_ifs
      iterate 4 exact hs.refuse _ _
      exact ((hs.congr (State.startSweep_line _ _ _)).respondOk _).finish

theorem sweepAbort (index : Byte) : (s.sweepAbort index).Orderly := by
  unfold State.sweepAbort
  split
  · exact hs.refuse _ _
  · split
    · exact hs.refuse _ _
    · split
      · exact ((hs.congr (State.abortSweep_line _ _ _)).respondOk _).finish
      · exact hs.refuse _ _

theorem softReset : s.softReset.Orderly := by
  have stale := hs.congr (State.modWindows_line s Window.allStale)
  have links : (((s.modWindows Window.allStale).modLink .a fun k => .reset k.config).modLink .b
      fun k => .reset k.config).Orderly :=
    (stale.modLink fun _ => Link.reset_orderly _).modLink fun _ => Link.reset_orderly _
  have blocks : s.resetBlocks.Orderly := State.Orderly.congr links
    ((State.line_of_links rfl rfl).trans (State.softResetHost_line _))
  exact State.Orderly.congr (blocks.respondOk 0x10) (State.driveIntn_line _)

end State.Orderly
end Sys2Proof.Machine
end

section
/-! STATEMENTS. Sequence values, ack timers and receivers: every command, and so every step, keeps their laws. -/

namespace Sys2Proof.Machine

namespace State.Orderly

variable {s t : State} (hs : s.Orderly)
include hs

/-- Taking a request keeps the law, whatever the request (R153, Table 12-4). -/
theorem request (c : Instr) : (s.request c).Orderly := by
  cases c with
  | nop => exact hs.congr (State.markTaken_line _)
  | partInfo | partConfigGet => exact hs.congr (State.respond_line _ _ _ _)
  | partConfigSet f => exact hs.congr (State.partConfigSet_line _ _)
  | windowSet index f => exact hs.congr (State.windowSet_line _ _ _)
  | windowClear index => exact hs.windowClear _
  | windowGet index => exact hs.congr (State.windowGet_line _ _)
  | linkSet link f => exact hs.linkSet _ _
  | linkEnable link => exact hs.linkEnable _
  | linkDisable link force => exact hs.linkDisable _ _
  | linkGet link => exact hs.congr (State.linkGet_line _ _)
  | flush link => exact hs.congr (State.flush_line _ _)
  | sweepStart index => exact hs.sweepStart _
  | sweepAbort index => exact hs.sweepAbort _
  | eventPop => exact hs.congr (State.eventPop_line _)
  | eventClear => exact hs.congr (State.eventClear_line _)
  | softReset => exact hs.softReset
  | badCommand code => exact hs.congr (State.badCommand_line _ _)
  | _ => exact hs

theorem endUntaken (clocked : List Byte) : (s.endUntaken clocked).Orderly := by
  unfold State.endUntaken
  split
  · exact hs
  · split
    · split
      · exact hs.request _
      · exact hs
    · exact hs.congr (State.line_of_links rfl rfl)

theorem take {act : State → State} (ha : (act s).Orderly) (h : s.take act = .next t) : t.Orderly := by
  cases h
  split
  · exact ha
  · exact hs

theorem happening {can : Bool} {act : State → State} (ha : can = true → (act s).Orderly)
    (h : s.happening can act = .next t) : t.Orderly := by
  cases h
  split
  next hc =>
    simp only [Bool.and_eq_true] at hc
    exact (ha hc.2).finish
  next => exact hs

/-- A happening that leaves the line of every link as it is. -/
theorem quietHappening {can : Bool} {act : State → State} (ha : (act s).line = s.line)
    (h : s.happening can act = .next t) : t.Orderly := hs.happening (fun _ => hs.congr ha) h

theorem tick : s.tick.Orderly := by
  unfold State.tick
  split
  · exact hs
  · have ticked := (hs.modLink (l := .a) (·.tick)).modLink (l := .b) (·.tick)
    exact ticked.congr (State.line_of_links rfl rfl)

/-- Every command keeps the law: a request by its effect, a happening by its act and what every happening ends with. -/
theorem exec (c : Instr) (h : exec c s = .next t) : t.Orderly := by
  cases c with
  | transactionBegin =>
    cases h
    split
    · exact hs.congr (State.line_of_links rfl rfl)
    · exact hs
    · exact hs
  | transactionEnd clocked =>
    cases h
    split
    · exact (hs.endUntaken clocked).congr (State.line_of_links rfl rfl)
    all_goals exact hs.congr (State.line_of_links rfl rfl)
  | hardwareReset =>
    cases h
    exact fun | .a => Link.reset_orderly .reset | .b => Link.reset_orderly .reset
  | resetEnd =>
    cases h
    exact hs.congr (State.line_of_links rfl rfl)
  | memoryCompletion status =>
    simp only [Machine.exec, execMemoryCompletion] at h
    split at h
    · cases h
      exact hs
    · cases h
      split
      · exact hs.congr (State.line_of_links rfl rfl)
      · exact State.Orderly.finish (hs.congr (State.complete_line _ _ _))
  | hostAccessArrival acc =>
    simp only [Machine.exec, execHostAccessArrival] at h
    exact hs.quietHappening (State.arrive_line _ _) h
  | arbiterChoice =>
    simp only [Machine.exec, execArbiterChoice] at h
    exact hs.quietHappening (State.arbiterChoice_line _) h
  | controlRecordDecision l =>
    simp only [Machine.exec, execControlRecordDecision] at h
    exact hs.quietHappening (State.decideControl_line _ _) h
  | frameBuild l =>
    simp only [Machine.exec, execFrameBuild] at h
    exact hs.happening (fun _ => hs.frameBuild l) h
  | sweepOpenQueued l =>
    simp only [Machine.exec, execSweepOpenQueued] at h
    exact hs.quietHappening (State.queueOpen_line _ _) h
  | sweepCloseQueued l =>
    simp only [Machine.exec, execSweepCloseQueued] at h
    exact hs.quietHappening (State.queueClose_line _ _) h
  | flushTimerExpiry l =>
    simp only [Machine.exec, execFlushTimerExpiry] at h
    exact hs.quietHappening (State.modLink_line rfl) h
  | transmitChoicePoint l =>
    simp only [Machine.exec, execTransmitChoicePoint] at h
    exact hs.happening (fun _ => hs.modLink (·.choicePoint _)) h
  | frameEnd l =>
    simp only [Machine.exec, execFrameEnd] at h
    exact hs.happening (fun _ => hs.endFrame l) h
  | ackTimerExpiry l =>
    simp only [Machine.exec, execAckTimerExpiry] at h
    exact hs.happening (fun _ => hs.goBack l) h
  | peerHoldLimitExpiry l =>
    simp only [Machine.exec, execPeerHoldLimitExpiry] at h
    exact hs.happening (fun _ => hs.faultLink l _) h
  | trainingTimerExpiry l =>
    simp only [Machine.exec, execTrainingTimerExpiry] at h
    exact hs.happening (fun _ => hs.faultLink l _) h
  | symbolArrival l sym =>
    simp only [Machine.exec, execSymbolArrival] at h
    exact hs.happening (fun examines => hs.receiveSymbol examines sym) h
  | silenceTimerExpiry l =>
    simp only [Machine.exec, execSilenceTimerExpiry] at h
    exact hs.happening (fun can => hs.silenceExpiry (Bool.and_eq_true_iff.1 can).1) h
  | captureHoldExpiry =>
    simp only [Machine.exec, execCaptureHoldExpiry] at h
    exact hs.quietHappening (State.holdExpiry_line _) h
  | nop | partInfo | partConfigSet | partConfigGet | windowSet | windowClear | windowGet | linkSet | linkEnable
  | linkDisable | linkGet | flush | sweepStart | sweepAbort | eventPop | eventClear | softReset | badCommand =>
    rw [exec_of_request rfl] at h
    exact hs.take (hs.request _) h

end State.Orderly

/-- Settles O53: the three laws are one law of each link; a step is a command on the state with the queue's rest, or a tick,
and each keeps it. -/
theorem stepKeepsSequenceLaws : Obligations.StepKeepsSequenceLaws := by
  intro s t sequence ack receiver h
  rw [← State.orderly_iff]
  have hs : s.Orderly := s.orderly_iff.2 ⟨sequence, ack, receiver⟩
  unfold step at h
  split at h
  next c rest _ =>
    have queued : ({ s with pending := rest } : State).Orderly := hs.congr (State.line_of_links rfl rfl)
    exact queued.exec c h
  next =>
    cases h
    exact hs.tick

end Sys2Proof.Machine
end

section
/-! SUPPORT. The symbols a receiver hears read back as what they were made from (R164, Tables 12-1 and 12-2). -/

namespace Sys2Proof.Machine

/-! ## Fields of joined bits -/

/-- The upper part of joined bits. -/
theorem extractLsb'_append_left {v w n : Nat} (x : BitVec v) (y : BitVec w) (i : Nat) :
    (x ++ y).extractLsb' (w + i) n = x.extractLsb' i n := by
  rw [BitVec.extractLsb'_append_eq_of_le (Nat.le_add_right _ _), Nat.add_sub_cancel_left]

/-- The part that was joined last, below the rest. -/
theorem extractLsb'_append_right {v w : Nat} (x : BitVec v) (y : BitVec w) : (x ++ y).extractLsb' 0 w = y := by
  rw [BitVec.extractLsb'_append_eq_of_add_le (by omega), BitVec.extractLsb'_eq_self]

theorem getLsbD_append_left {v w : Nat} (x : BitVec v) (y : BitVec w) (i : Nat) :
    (x ++ y).getLsbD (w + i) = x.getLsbD i := by simp [BitVec.getLsbD_append]

theorem getLsbD_append_ofBool {v : Nat} (x : BitVec v) (b : Bool) : (x ++ BitVec.ofBool b).getLsbD 0 = b := by
  rw [BitVec.getLsbD_append]
  cases b <;> rfl

/-! ## Symbols -/

theorem symbolOf_alignment (type : BitVec 2) (p : Payload) : (symbolOf type p).extractLsb' 18 2 = 0b10#2 :=
  (extractLsb'_append_left (0b10#2 ++ type) p 2).trans
    ((extractLsb'_append_left 0b10#2 type 0).trans BitVec.extractLsb'_eq_self)

theorem symbolOf_type (type : BitVec 2) (p : Payload) : (symbolOf type p).extractLsb' 16 2 = type :=
  (extractLsb'_append_left (0b10#2 ++ type) p 0).trans (extractLsb'_append_right 0b10#2 type)

theorem symbolOf_payload (type : BitVec 2) (p : Payload) : (symbolOf type p).extractLsb' 0 16 = p :=
  extractLsb'_append_right (0b10#2 ++ type) p

theorem decodeSymbol_idleSymbol (ack next : Seq) (hold : Bool) :
    decodeSymbol (idleSymbol ack next hold) = .idle ack next hold := by
  have ackField : (ack ++ next ++ BitVec.ofBool hold ++ 0#3 : BitVec 16).extractLsb' 10 6 = ack :=
    (extractLsb'_append_left (ack ++ next ++ BitVec.ofBool hold) 0#3 7).trans
      ((extractLsb'_append_left (ack ++ next) (BitVec.ofBool hold) 6).trans
        ((extractLsb'_append_left ack next 0).trans BitVec.extractLsb'_eq_self))
  have nextField : (ack ++ next ++ BitVec.ofBool hold ++ 0#3 : BitVec 16).extractLsb' 4 6 = next :=
    (extractLsb'_append_left (ack ++ next ++ BitVec.ofBool hold) 0#3 1).trans
      ((extractLsb'_append_left (ack ++ next) (BitVec.ofBool hold) 0).trans (extractLsb'_append_right ack next))
  have holdField : (ack ++ next ++ BitVec.ofBool hold ++ 0#3 : BitVec 16).getLsbD 3 = hold :=
    (getLsbD_append_left (ack ++ next ++ BitVec.ofBool hold) 0#3 0).trans (getLsbD_append_ofBool (ack ++ next) hold)
  rw [idleSymbol, decodeSymbol, symbolOf_alignment, symbolOf_type, symbolOf_payload, ackField, nextField, holdField]
  rfl

theorem decodeSymbol_nakSymbol (expected : Seq) : decodeSymbol (nakSymbol expected) = .nak expected := by
  have code : (0b01#2 ++ expected ++ 0#8 : BitVec 16).extractLsb' 14 2 = 0b01#2 :=
    (extractLsb'_append_left (0b01#2 ++ expected) 0#8 6).trans
      ((extractLsb'_append_left 0b01#2 expected 0).trans BitVec.extractLsb'_eq_self)
  have field : (0b01#2 ++ expected ++ 0#8 : BitVec 16).extractLsb' 8 6 = expected :=
    (extractLsb'_append_left (0b01#2 ++ expected) 0#8 0).trans (extractLsb'_append_right 0b01#2 expected)
  rw [nakSymbol, decodeSymbol, symbolOf_alignment, symbolOf_type, symbolOf_payload, code, field]
  rfl

theorem decodeSymbol_helloSymbol (id : Byte) (class16 seenYou : Bool) :
    decodeSymbol (helloSymbol id class16 seenYou) = .hello id class16 seenYou := by
  have above (i n : Nat) :
      (0b10#2 ++ id ++ BitVec.ofBool class16 ++ BitVec.ofBool seenYou ++ 0#4 : BitVec 16).extractLsb' (6 + i) n =
        (0b10#2 ++ id).extractLsb' i n := by
    rw [show 6 + i = 4 + (1 + (1 + i)) by omega]
    exact (extractLsb'_append_left (0b10#2 ++ id ++ BitVec.ofBool class16 ++ BitVec.ofBool seenYou) 0#4 _).trans
      ((extractLsb'_append_left (0b10#2 ++ id ++ BitVec.ofBool class16) (BitVec.ofBool seenYou) _).trans
        (extractLsb'_append_left (0b10#2 ++ id) (BitVec.ofBool class16) i))
  have code : (0b10#2 ++ id ++ BitVec.ofBool class16 ++ BitVec.ofBool seenYou ++ 0#4 : BitVec 16).extractLsb' 14 2 =
      0b10#2 := (above 8 2).trans ((extractLsb'_append_left 0b10#2 id 0).trans BitVec.extractLsb'_eq_self)
  have idField : (0b10#2 ++ id ++ BitVec.ofBool class16 ++ BitVec.ofBool seenYou ++ 0#4 : BitVec 16).extractLsb' 6 8 =
      id := (above 0 8).trans (extractLsb'_append_right 0b10#2 id)
  have classField : (0b10#2 ++ id ++ BitVec.ofBool class16 ++ BitVec.ofBool seenYou ++ 0#4 : BitVec 16).getLsbD 5 =
      class16 :=
    (getLsbD_append_left (0b10#2 ++ id ++ BitVec.ofBool class16 ++ BitVec.ofBool seenYou) 0#4 1).trans
      ((getLsbD_append_left (0b10#2 ++ id ++ BitVec.ofBool class16) (BitVec.ofBool seenYou) 0).trans
        (getLsbD_append_ofBool (0b10#2 ++ id) class16))
  have seenField : (0b10#2 ++ id ++ BitVec.ofBool class16 ++ BitVec.ofBool seenYou ++ 0#4 : BitVec 16).getLsbD 4 =
      seenYou :=
    (getLsbD_append_left (0b10#2 ++ id ++ BitVec.ofBool class16 ++ BitVec.ofBool seenYou) 0#4 0).trans
      (getLsbD_append_ofBool (0b10#2 ++ id ++ BitVec.ofBool class16) seenYou)
  rw [helloSymbol, decodeSymbol, symbolOf_alignment, symbolOf_type, symbolOf_payload, code, idField, classField,
    seenField]
  rfl

end Sys2Proof.Machine
end

section
/-! SUPPORT. A link that goes down: `WentDown` of its entry to DISABLED or FAULT, whatever its transmitter and receiver were
(R57, R75, R130). -/

namespace Sys2Proof.Machine

/-- What the entry to DISABLED or FAULT does to a link, and what it leaves (R130, Table 8-5). -/
theorem State.enterDown_wentDown {s : State} (hs : s.SweepLaw) (l : LinkId) (r : Option FaultReason) :
    s.WentDown (s.enterDown l r) l r := by
  obtain ⟨v, hu, windows⟩ := s.enterDown_eq l r hs
  have link : (s.enterDown l r).link l = (s.link l).downSwept r := by
    rw [hu, State.withWindows_link, State.offered_link, State.modLink_link]
  have down := (s.link l).goDown_eq r
  have offered := State.offered_congr (s.downEvents l r) (s := s.modLink l (·.downSwept r)) (t := s)
    (State.modLink_events _ _ _) (State.modLink_overflow _ _ _)
  constructor
  case same =>
    rw [hu, State.offered_eq]
    constructor
    case other =>
      rw [State.withWindows_link]
      exact (by cases l <;> rfl)
    all_goals simp
  case windows =>
    rw [hu]
    exact windows
  case events =>
    rw [hu]
    exact offered.1
  case overflow =>
    rw [hu]
    exact offered.2
  case kept => rw [link, Link.downSwept, down]; exact ⟨rfl, rfl⟩
  all_goals rw [link, Link.downSwept, down] <;> rfl

/-- A change of a transmitter and a receiver alone: nothing else of the link is another, and of the part nothing. -/
def Link.LineChange (k : Link) (f : Link → Link) : Prop := f k = { k with tx := (f k).tx, rx := (f k).rx }

section
variable {s : State} {l : LinkId} {f : Link → Link}

theorem State.SweepLaw.modLine (hs : s.SweepLaw) (h : (s.link l).LineChange f) : (s.modLink l f).SweepLaw := by
  have same (l' : LinkId) : ((s.modLink l f).link l').sweep = (s.link l').sweep ∧
      (s.modLink l f).linkState l' = s.linkState l' := by
    by_cases hl : l' = l
    · subst hl
      rw [State.linkState, State.modLink_link, h]
      exact ⟨rfl, rfl⟩
    · rw [State.linkState, State.modLink_link_ne _ hl]
      exact ⟨rfl, rfl⟩
  refine ⟨fun i w hw => ?_, fun l' sw hsw => ?_⟩
  · rw [(same _).1]
    exact hs.sweeping i w (by simpa using hw)
  · rw [(same _).1] at hsw
    rw [(same _).2, State.modLink_window]
    exact hs.active l' sw hsw

/-- The link that goes down after a change of its transmitter and receiver is the link that goes down without it. -/
theorem State.WentDown.of_modLine {u : State} {r : Option FaultReason} (h : (s.link l).LineChange f)
    (hu : (s.modLink l f).WentDown u l r) : s.WentDown u l r := by
  have link : (s.modLink l f).link l =
      { s.link l with tx := (f (s.link l)).tx, rx := (f (s.link l)).rx } := (State.modLink_link _ _ _).trans h
  have events : (s.modLink l f).downEvents l r = s.downEvents l r := by
    simp only [State.downEvents, link]
  obtain ⟨same, control, transmitter, capture, receiver, conflict, queue, flag, outstanding, sweep, read, kept, windows,
    evs, overflow⟩ := hu
  obtain ⟨other, pending, inReset, config, host, port, applyPointer, sweepPointer, response, spi⟩ := same
  have offered := State.offered_congr (s.downEvents l r) (s := s.modLink l f) (t := s)
    (State.modLink_events _ _ _) (State.modLink_overflow _ _ _)
  rw [link] at control queue flag outstanding read kept
  rw [events] at evs overflow
  simp only [State.modLink_pending, State.modLink_inReset, State.modLink_config, State.modLink_host, State.modLink_port,
    State.modLink_applyPointer, State.modLink_sweepPointer, State.modLink_response, State.modLink_spi,
    State.modLink_window, State.modLink_link_other] at *
  exact ⟨⟨other, pending, inReset, config, host, port, applyPointer, sweepPointer, response, spi⟩, control, transmitter,
    capture, receiver, conflict, queue, flag, outstanding, sweep, read, kept, windows, evs.trans offered.1,
    overflow.trans offered.2⟩

/-- A running link that is faulted after a change of its transmitter and receiver (R57, R75, R129). -/
theorem State.faultLink_wentDown (hs : s.SweepLaw) (hrun : (s.linkState l).running = true)
    (h : (s.link l).LineChange f) (r : FaultReason) : s.WentDown ((s.modLink l f).faultLink l r) l (some r) := by
  have running : ((s.modLink l f).linkState l).running = true := by
    rw [State.modLink_linkState, h]
    exact hrun
  rw [State.faultLink_running running]
  exact (State.enterDown_wentDown (hs.modLine h) l (some r)).of_modLine h

end

end Sys2Proof.Machine
end

section
/-! STATEMENTS. Acknowledgement: go-back at an expiry and at a NAK, an IDLE and a HELLO on an UP or DRAINING link. -/

namespace Sys2Proof.Machine

/-! ## Symbols heard -/

section
variable {s : State} {l : LinkId}

/-- A symbol other than DATA damages a frame under assembly before it acts (R63, R64, R69). -/
theorem State.modLink_heard (s : State) (l : LinkId) :
    (s.modLink l fun k => { (Link.restartSilence k) with
      rx := { (Link.restartSilence k).rx with malformedRun := 0 } }).modLink l Link.damageAssembly =
      s.modLink l Link.heard := by
  rw [State.modLink_modLink]
  exact State.modLink_congr (Link.heard_eq _)

theorem State.Hears.running_link (h : s.Hears l) : (s.linkState l).running = true :=
  LinkState.running_of_carrying h.state

theorem State.Hears.exec_nak (h : s.Hears l) (expected : Seq) : exec (.symbolArrival l (nakSymbol expected)) s =
    .next ((s.modLink l Link.heard).receiveNak l expected).finish := by
  rw [State.symbolArrival_aligned h _ (by simp [decodeSymbol_nakSymbol]), decodeSymbol_nakSymbol, State.symbolInUp,
    State.modLink_heard]

theorem State.Hears.exec_idle (h : s.Hears l) (ack next : Seq) (hold : Bool) :
    exec (.symbolArrival l (idleSymbol ack next hold)) s =
      .next (((s.modLink l Link.heard).receiveIdle l ack hold).offerIdle l ack next).finish := by
  rw [State.symbolArrival_aligned h _ (by simp [decodeSymbol_idleSymbol]), decodeSymbol_idleSymbol, State.symbolInUp,
    State.modLink_heard]

theorem State.Hears.exec_hello (h : s.Hears l) (id : Byte) (class16 seenYou : Bool) :
    exec (.symbolArrival l (helloSymbol id class16 seenYou)) s =
      .next (if seenYou then s.modLink l Link.heard else (s.modLink l Link.heard).faultLink l .peerRestart).finish := by
  rw [State.symbolArrival_aligned h _ (by simp [decodeSymbol_helloSymbol]), decodeSymbol_helloSymbol, State.symbolInUp,
    State.modLink_heard]

end

theorem Link.heard_lineChange (k : Link) : k.LineChange Link.heard := rfl

/-! ## The ack -/

section
variable {k : Link} {a : Seq} {gone rest : List Frame}

theorem Link.AckSplits.heard (h : k.AckSplits a gone rest) : k.heard.AckSplits a gone rest := ⟨h.list, h.covered, h.kept⟩

theorem Link.AckSplits.retransmit_acked (h : k.AckSplits a gone rest) : (k.acked gone rest).retransmit = rest := by
  unfold Link.acked
  split
  next hg => rw [h.list, hg, List.nil_append]
  next => rfl

theorem Link.acked_nextSend (k : Link) (gone rest : List Frame) : (k.acked gone rest).nextSend = k.tx.nextSend := by
  unfold Link.acked
  split <;> rfl

theorem Link.acked_peerHold (k : Link) (gone rest : List Frame) : (k.acked gone rest).peerHold = k.tx.peerHold := by
  unfold Link.acked
  split <;> rfl

/-- The ack and the hold flag of an IDLE at the ack timer of a link in NORMAL mode (R46, R49, Table 3-5). -/
theorem Link.AckSplits.holdTimer (h : k.AckSplits a gone rest) (law : k.AckTimerLaw) (normal : k.config.mode = .normal)
    (hold : Bool) :
    (if hold then (k.acked gone rest).ackTimer.pause else (k.acked gone rest).ackTimer.resume) =
      if rest.any Frame.sent = false then .stopped
      else if gone ≠ [] then (if hold then .paused k.config.ackTimeout else .running k.config.ackTimeout)
      else match k.tx.ackTimer with
        | .running n => if hold then .paused n else .running n
        | .paused n => if hold then .paused n else .running n
        | .stopped => .stopped := by
  have suits := law.suits
  rw [normal] at suits
  cases sent : rest.any Frame.sent with
  | false =>
    have stopped : (k.acked gone rest).ackTimer = .stopped := by
      unfold Link.acked
      split
      next hg =>
        rw [h.list, hg, List.nil_append] at suits
        rwa [show anySent rest = false from sent, Timer.suits_noneSent] at suits
      next => simp
    rw [stopped]
    cases hold <;> rfl
  | true =>
    by_cases hg : gone = []
    · simp only [Link.acked, hg, if_true, ne_eq, not_true_eq_false, if_false, Bool.true_eq_false]
      cases k.tx.ackTimer <;> cases hold <;> rfl
    · have listed : anySent k.tx.retransmit = true := by
        rw [anySent, h.list, List.any_append]
        exact Bool.or_eq_true_iff.2 (.inr sent)
      rw [listed] at suits
      cases ht : k.tx.ackTimer with
      | stopped => simp [ht, Timer.suits] at suits
      | running n => cases hold <;> simp [Link.acked, hg, sent, ht, Timer.pause, Timer.resume]
      | paused n => cases hold <;> simp [Link.acked, hg, sent, ht, Timer.pause, Timer.resume]

end

/-! ## Go-back -/

section
variable {s : State} {l : LinkId}

theorem State.goBack_of_le (h : (s.link l).tx.retryCount + 1 ≤ (s.link l).config.retryLimit) :
    s.goBack l = s.modLink l Link.goneBack := by
  unfold State.goBack
  dsimp only
  exact if_neg (by simpa using h)

theorem State.goBack_of_lt (h : (s.link l).config.retryLimit < (s.link l).tx.retryCount + 1) :
    s.goBack l = (s.modLink l Link.goneBack).faultLink l .noProgress := by
  unfold State.goBack
  dsimp only
  exact if_pos (by simpa using h)

/-- The NAK's ack acts, and go-back follows where the head of what is left is the frame it names (R47). -/
theorem State.receiveNak_split {expected : Seq} {gone rest : List Frame}
    (h : (s.link l).AckSplits expected gone rest) :
    let acked := s.modLink l fun k => { k with tx := k.acked gone rest }
    s.receiveNak l expected = if rest.head?.any (fun f => decide (f.seq = expected)) then acked.goBack l else acked := by
  have acked : s.modLink l (·.acknowledge expected) = s.modLink l fun k => { k with tx := k.acked gone rest } :=
    State.modLink_congr (Link.acknowledge_split h)
  unfold State.receiveNak
  dsimp only
  rw [acked, State.modLink_link]
  dsimp only
  rw [h.retransmit_acked]

theorem exec_ackTimerExpiry (s : State) (l : LinkId) :
    exec (.ackTimerExpiry l) s = s.happening (s.link l).tx.ackTimer.hasRunOut (·.goBack l) := rfl

end

/-- Settles O42: an expiry and a NAK that names the head both end in go-back, of the link as it was and of the link acked. -/
theorem goBackResends : Obligations.GoBackResends := by
  intro s l sweep back ends
  have went (c : Instr) (f : Link → Link) (hf : (s.link l).LineChange f) (hrun : (s.linkState l).running = true)
      (hc : exec c s = .next ((s.modLink l f).goBack l).finish) : ends (s.modLink l f) c := by
    refine ⟨fun within => ?_, fun above => ?_⟩
    · rw [hc, State.goBack_of_le within]
      rfl
    · rw [State.goBack_of_lt above, State.modLink_modLink] at hc
      have line : (s.link l).LineChange fun k => (f k).goneBack := by
        rw [Link.LineChange, Link.goneBack, hf]
      exact ⟨_, hc, State.faultLink_wentDown sweep hrun line _⟩
  refine ⟨fun hr state timer => ?_, fun timer => ?_, ?_⟩
  · have ended := went (.ackTimerExpiry l) (fun k => k) rfl (LinkState.running_of_carrying state) (by
      rw [State.modLink_id, exec_ackTimerExpiry, State.happening_of hr ((Timer.hasRunOut_iff _).2 timer)])
    rwa [State.modLink_id] at ended
  · rw [exec_ackTimerExpiry]
    exact State.happening_not_runOut timer true _
  · intro expected gone rest hears splits acked
    have split := State.receiveNak_split (s := s.modLink l Link.heard) (l := l) (expected := expected) (gone := gone)
      (rest := rest) (by rw [State.modLink_link]; exact splits.heard)
    rw [State.modLink_modLink] at split
    refine ⟨fun ⟨f, head, named⟩ => ?_, fun other => ?_⟩
    · refine went _ _ rfl hears.running_link ?_
      rw [hears.exec_nak, split, if_pos (by rw [Option.mem_def.1 head]; exact decide_eq_true named)]
    · rw [hears.exec_nak, split, if_neg]
      cases hh : rest.head? with
      | none => exact Bool.false_ne_true
      | some f => simpa using other f hh

/-! ## IDLE and HELLO -/

theorem followHold_eq (limit : Nat) (old new : Bool) (t : Timer) :
    followHold limit old new t = (if new = old then t else if new then .running (limit * 1000) else .stopped) := by
  cases old <;> cases new <;> rfl

theorem ApplyBlock.allDecided_iff (q : ApplyBlock) :
    q.allDecided = true ↔ q.queue = [] ∨ (q.outstanding ≠ .none ∧ q.queue.length = 1) := by
  simp [ApplyBlock.allDecided]

/-- An IDLE of a peer that has built nothing untaken offers its ack to the horizon, while no record is undecided (R99). -/
theorem State.offerIdle_eq (s : State) (l : LinkId) (ack next : Seq) :
    s.offerIdle l ack next = s.modLink l fun k => { k with
      conflict :=
        if next = k.rx.receiveExpected ∧
            (k.apply.queue = [] ∨ (k.apply.outstanding ≠ .none ∧ k.apply.queue.length = 1)) then
          k.horizonAfter ack
        else k.conflict } := by
  simp only [State.offerIdle, ApplyBlock.allDecided_iff, State.offerHorizon_eq]
  split
  next h => exact State.modLink_congr (by rw [if_pos h])
  next h => exact (State.modLink_id s l).symm.trans (State.modLink_congr (by rw [if_neg h]))

/-- Settles O49: the ack and the hold flag act on the transmitter as Table 3-5 says, and leave what the horizon looks at. -/
theorem idleAndHelloInUp : Obligations.IdleAndHelloInUp := by
  intro s l hears timers sweep
  refine ⟨fun ack nextSend hold gone rest splits => ?_, fun id class16 => ?_, fun id class16 => ?_⟩
  · have law : (s.link l).AckTimerLaw := by
      cases l
      · exact timers.a
      · exact timers.b
    have timer := splits.heard.holdTimer (hold := hold) { law with } hears.normal
    rw [hears.exec_idle, State.receiveIdle, State.offerIdle_eq, State.modLink_modLink, State.modLink_modLink]
    refine congrArg (fun t : State => Host.Outcome.next t.finish) (State.modLink_congr ?_)
    rw [Link.acknowledge_split splits.heard]
    simp only [Link.setPeerHold, timer, followHold_eq, Link.horizonAfter, Link.acked_nextSend, Link.acked_peerHold]
    rfl
  · rw [hears.exec_hello, if_pos rfl]
  · rw [hears.exec_hello, if_neg Bool.false_ne_true]
    exact ⟨_, rfl, State.faultLink_wentDown sweep hears.running_link (Link.heard_lineChange _) _⟩

end Sys2Proof.Machine
end

section
/-! STATEMENTS. The transmitter's choice, and the delivery of a frame in LOOP mode. -/

namespace Sys2Proof.Machine

/-! ## The choice at a choice point (R39 to R44) -/

namespace Link

variable {k : Link}

theorem choicePoint_carrying (h : k.control.state = .up ∨ k.control.state = .draining) (nodeId : Byte) :
    k.choicePoint nodeId = k.chooseSymbol := by
  rcases h with h | h <;> rw [choicePoint, h]

theorem choicePoint_training (h : k.control.state = .hunting ∨ k.control.state = .training) (nodeId : Byte) :
    k.choicePoint nodeId = { k with tx := { k.tx with output := .symbol (k.hello nodeId) } } := by
  rcases h with h | h <;> rw [choicePoint, h]

theorem chooseSymbol_nak (h : k.tx.nakRequest = true) : k.chooseSymbol =
    { k with tx := { k.tx with nakRequest := false, output := .symbol (nakSymbol k.rx.receiveExpected) } } := by
  rw [chooseSymbol, if_pos h]

theorem chooseSymbol_idle (h : k.tx.nakRequest = false) (hs : k.mayStartFrame = false) : k.chooseSymbol =
    { k with tx := { k.tx with
        idleSent := true
        output := .symbol (idleSymbol k.rx.receiveExpected k.tx.nextSend k.apply.holdFlag) } } := by
  rw [chooseSymbol, if_neg (by simp [h]), if_neg (by simp [hs])]

theorem chooseSymbol_frame (h : k.tx.nakRequest = false) (hs : k.mayStartFrame = true) :
    k.chooseSymbol = k.startFrame := by
  rw [chooseSymbol, if_neg (by simp [h]), if_pos hs]

/-- In NORMAL mode a frame may start where one is unsent, the peer hold is clear and an IDLE has been sent (R39). -/
theorem mayStartFrame_iff (normal : k.config.mode = .normal) : k.mayStartFrame = true ↔
    (∃ f ∈ k.tx.retransmit, f.sent = false) ∧ k.tx.peerHold = false ∧ k.tx.idleSent = true := by
  simp [mayStartFrame, peerHold, normal, and_assoc]

/-- A frame starts: the oldest unsent one is marked sent, and the ack timer starts where none was (R44, R49). -/
theorem startFrame_split (normal : k.config.mode = .normal) {pre post : List Frame} {f : Frame}
    (list : k.tx.retransmit = pre ++ f :: post) (ahead : ∀ g ∈ pre, g.sent = true) (unsent : f.sent = false) :
    k.startFrame = { k with tx := { k.tx with
      retransmit := pre ++ { f with sent := true } :: post
      output := .frame { f with sent := true }
      ackTimer := if pre.any Frame.sent ∨ post.any Frame.sent then k.tx.ackTimer
        else .running k.config.ackTimeout } } := by
  have found : k.tx.retransmit.find? (fun f => !f.sent) = some f :=
    List.find?_eq_some_iff_append.2 ⟨by simp [unsent], pre, post, list, by simpa using ahead⟩
  have sent : anySent k.tx.retransmit = true ↔ pre.any Frame.sent = true ∨ post.any Frame.sent = true := by
    rw [list, anySent, List.any_append, List.any_cons, unsent, Bool.false_or, Bool.or_eq_true]
  simp only [startFrame, found, normal, true_and, sent, ite_not]
  rw [list, markFirstUnsent_split pre f post ahead unsent]

end Link

theorem exec_transmitChoicePoint (s : State) (l : LinkId) : exec (.transmitChoicePoint l) s =
    s.happening (decide ((s.link l).config.mode = .normal) && (s.linkState l).running && (s.link l).tx.output.isSymbol)
      (fun s => s.modLink l (·.choicePoint s.config.nodeId)) := rfl

theorem exec_frameEnd (s : State) (l : LinkId) : exec (.frameEnd l) s =
    s.happening ((s.linkState l).carrying && (s.link l).tx.output.isFrame) (·.endFrame l) := rfl

theorem exec_frameEnd_of {s : State} {l : LinkId} {f : Frame} (hr : s.inReset = false)
    (carrying : (s.linkState l).carrying = true) (output : (s.link l).tx.output = .frame f) :
    exec (.frameEnd l) s = .next (s.endFrame l).finish := by
  rw [exec_frameEnd, State.happening_of hr (by simp [carrying, output, Output.isFrame])]

/-- A symbol outside a frame ends on the line of a link in NORMAL mode that sends (R38, R39). -/
theorem exec_transmitChoicePoint_of {s : State} {l : LinkId} {y : Symbol} (hr : s.inReset = false)
    (normal : (s.link l).config.mode = .normal) (running : (s.linkState l).running = true)
    (output : (s.link l).tx.output = .symbol y) :
    exec (.transmitChoicePoint l) s = .next (s.modLink l (·.choicePoint s.config.nodeId)).finish := by
  rw [exec_transmitChoicePoint, State.happening_of hr (by simp [normal, running, output, Output.isSymbol])]

/-- The end of a frame in NORMAL mode is a choice point at which no IDLE has been sent since (R39, R44). -/
theorem State.endFrame_normal {s : State} {l : LinkId} {f : Frame} (normal : (s.link l).config.mode = .normal)
    (output : (s.link l).tx.output = .frame f) :
    s.endFrame l = s.modLink l fun k => Link.chooseSymbol { k with tx := { k.tx with idleSent := false } } := by
  simp only [State.endFrame, output, normal]

/-- Settles O43: in HUNTING and TRAINING a HELLO; in UP and DRAINING the first of NAK, frame and IDLE that may be sent. -/
theorem nextSymbolChosen : Obligations.NextSymbolChosen := by
  intro s l hr normal k sends hello nak idle
  have sent {c : Instr} {f : Link → Link} {tx : Transmitter} (hc : exec c s = .next (s.modLink l f).finish)
      (hf : f k = { k with tx }) : sends c tx := by
    refine hc.trans (congrArg (fun t : State => Host.Outcome.next t.finish) (State.modLink_congr ?_))
    exact hf
  refine ⟨fun y output => ⟨fun state => ?_, fun state => ?_⟩, fun f output state => ?_, fun output => ?_⟩
  · have running : (s.linkState l).running = true := by
      rcases state with h | h <;> rw [State.linkState, h] <;> rfl
    exact sent (exec_transmitChoicePoint_of hr normal running output) (Link.choicePoint_training state _)
  · have chosen := exec_transmitChoicePoint_of hr normal (LinkState.running_of_carrying state) output
    have choice := Link.choicePoint_carrying state s.config.nodeId
    refine ⟨fun request => ?_, fun pre f post request list ahead unsent hold idleSent => ?_, fun request none => ?_⟩
    · exact sent chosen (choice.trans (Link.chooseSymbol_nak request))
    · have may := (Link.mayStartFrame_iff normal).2 ⟨⟨f, by rw [list]; simp, unsent⟩, hold, idleSent⟩
      exact sent chosen (choice.trans ((Link.chooseSymbol_frame request may).trans
        (Link.startFrame_split normal list ahead unsent)))
    · have mayNot : k.mayStartFrame = false := by
        rw [Bool.eq_false_iff, Ne, Link.mayStartFrame_iff normal]
        rintro ⟨⟨f, listed, unsent⟩, hold, idleSent⟩
        rcases none with h | h | h
        · rw [h f listed] at unsent; cases unsent
        · rw [h] at hold; cases hold
        · rw [h] at idleSent; cases idleSent
      exact sent chosen (choice.trans (Link.chooseSymbol_idle request mayNot))
  · have ended := exec_frameEnd_of hr ((LinkState.carrying_iff _).2 state) output
    rw [State.endFrame_normal normal output] at ended
    refine ⟨fun request => sent ended (Link.chooseSymbol_nak request), fun request => ?_⟩
    exact sent ended (Link.chooseSymbol_idle request (by simp [Link.mayStartFrame]))
  · have rest : (s.link l).tx.output = .rest := output
    rw [exec_transmitChoicePoint, exec_frameEnd]
    exact ⟨State.happening_not (by simp [rest, Output.isSymbol]) _,
      State.happening_not (by simp [rest, Output.isFrame]) _⟩

/-! ## LOOP mode (R56, R74, R78) -/

theorem before_succ (q : Seq) : before q (q + 1) = true := by
  have one : q + 1 - q = 1 := by rw [BitVec.add_comm]; exact BitVec.add_sub_cancel _ _
  rw [before, one]
  rfl

theorem before_self (q : Seq) : before q q = false := by simp [before]

/-- The sequence numbers of consecutive frames (R43). -/
theorem exists_seq_of_mem {q : Seq} {fs : List Frame} (h : framesFrom q fs) {f : Frame} (hf : f ∈ fs) :
    ∃ i < fs.length, f.seq = q + BitVec.ofNat 6 i := by
  induction fs generalizing q with
  | nil => cases hf
  | cons g gs ih =>
    obtain ⟨seq, behind⟩ := h
    rcases List.mem_cons.1 hf with rfl | hg
    · exact ⟨0, Nat.zero_lt_succ _, by simpa using seq⟩
    · obtain ⟨i, hi, hseq⟩ := ih behind hg
      refine ⟨i + 1, Nat.succ_lt_succ hi, ?_⟩
      rw [hseq, Nat.add_comm i 1, BitVec.ofNat_add, BitVec.add_assoc]
      rfl

/-- The frames behind the head of a list within the in-flight limit have other sequence numbers than the head (R43). -/
theorem seq_ne_of_mem_tail {q : Seq} {fs : List Frame} (h : framesFrom (q + 1) fs) (short : fs.length < 63) {f : Frame}
    (hf : f ∈ fs) : f.seq ≠ q := by
  obtain ⟨i, hi, seq⟩ := exists_seq_of_mem h hf
  intro same
  have value := congrArg BitVec.toNat (same.symm.trans seq)
  simp only [BitVec.toNat_add, BitVec.toNat_ofNat, show (1 : Seq).toNat = 1 from rfl] at value
  have := q.isLt
  omega

/-- In LOOP mode the ack for the head frame alone removes it, and the ack timer stays stopped (R56). -/
theorem Link.acknowledge_head {k : Link} {head : Frame} {rest : List Frame} (sequence : k.SequenceLaw)
    (stopped : k.tx.ackTimer = .stopped) (list : k.tx.retransmit = head :: rest) :
    k.acknowledge (head.seq + 1) =
      { k with tx := { k.tx with retransmit := rest, oldest := head.seq + 1, retryCount := 0 } } := by
  have consecutive := sequence.consecutive
  have next := sequence.nextSend
  rw [list] at consecutive next
  obtain ⟨oldest, behind⟩ := consecutive
  rw [← oldest] at behind next
  have splits : k.AckSplits (head.seq + 1) [head] rest := by
    refine ⟨list, fun f hf => ?_, fun f hf => ?_⟩
    · rw [List.mem_singleton.1 hf]
      exact before_succ _
    · obtain ⟨fs, rfl⟩ := List.head?_eq_some_iff.1 hf
      rw [behind.1]
      exact before_self _
  have first : (rest.head?.map Frame.seq).getD k.tx.nextSend = head.seq + 1 := by
    cases rest with
    | nil => exact next
    | cons f fs => exact behind.1
  rw [Link.acknowledge_split splits, Link.acked, if_neg (List.cons_ne_nil _ _), first, stopped]
  simp [stopped]

theorem State.offerHead_of_not_senior {s : State} {l : LinkId} (h : (s.link l).control.rank ≠ .senior) :
    s.offerHead l = s := by
  unfold State.offerHead
  split
  next v _ =>
    rw [State.offerHorizon_eq]
    exact (State.modLink_congr (g := fun k => k) (by rw [Link.horizonAfter, if_neg fun hs => h hs.1])).trans
      (State.modLink_id s l)
  next => rfl

/-- A frame with room at a link whose rank is not SENIOR: nothing is offered to the horizon (R72, R78, R97). -/
theorem State.offerFrame_of_not_senior {s : State} {l : LinkId} {seen : Seq} {items : List Record}
    (room : (s.link l).roomForFrame items.length = true) (rank : (s.link l).control.rank ≠ .senior) :
    s.offerFrame l seen items = s.modLink l fun k =>
      let occupancy := k.apply.queue.length + items.length
      { k with
        rx := { k.rx with receiveExpected := k.rx.receiveExpected + 1, nakSent := false }
        apply := { k.apply with
          queue := k.apply.queue ++ items.map fun r => { record := r, seen := some seen, drainPoint := false }
          holdFlag := k.flagAt occupancy }
        control := { k.control with peerHoldTimer := k.loopTimer (k.flagAt occupancy) } } := by
  have taken (k : Link) : k.takeRecords seen items =
      let occupancy := k.apply.queue.length + items.length
      { k with
        apply := { k.apply with
          queue := k.apply.queue ++ items.map fun r => { record := r, seen := some seen, drainPoint := false }
          holdFlag := k.flagAt occupancy }
        control := { k.control with peerHoldTimer := k.loopTimer (k.flagAt occupancy) } } := by
    simp [Link.takeRecords, Link.evalHold_eq, Link.flagAt, Link.loopTimer]
  unfold State.offerFrame
  simp only [room, if_true, taken]
  split
  · exact State.offerHead_of_not_senior (by rw [State.modLink_link]; exact rank)
  · rfl

/-- Settles O44: room for the records decides whether the frame is acknowledged and taken, or marked unsent. -/
theorem loopFrameDelivered : Obligations.LoopFrameDelivered := by
  intro s l f head rest hr loop state rank output list headSeq expected sequences timers capacity
  have sequence : (s.link l).SequenceLaw := by
    cases l
    · exact sequences.a
    · exact sequences.b
  have stopped : (s.link l).tx.ackTimer = .stopped := by
    cases l
    · exact timers.a.loop loop
    · exact timers.b.loop loop
  have ended : exec (.frameEnd l) s = .next (s.loopDeliver l f).finish := by
    rw [exec_frameEnd_of hr ((LinkState.carrying_iff _).2 state) output]
    simp only [State.endFrame, output, loop]
  have room : (s.link l).roomForFrame f.items.length = true ↔ (s.link l).apply.queue.length + f.items.length ≤ 32 := by
    have within := capacity.apply
    rw [Link.roomForFrame_iff]
    simp only [Config.applyCapacity] at *
    omega
  have delivered {f : Link → Link} {t : State} (h : t = s.modLink l f) :
      (.next t.finish : Host.Outcome State Fault Refusal) = .next (s.modLink l f).finish := by rw [h]
  rw [ended, State.loopDeliver]
  dsimp only
  refine ⟨fun fits => delivered ?_, fun full => delivered ?_⟩
  · have acked := Link.acknowledge_head
      (k := { s.link l with tx := { (s.link l).tx with output := .rest } }) { sequence with } stopped list
    rw [headSeq] at acked
    rw [State.modLink_link, if_pos ⟨expected, room.2 fits⟩, State.modLink_modLink, State.offerFrame_of_not_senior,
      State.modLink_modLink]
    · refine State.modLink_congr ?_
      dsimp only
      rw [acked, expected]
      rfl
    · rw [State.modLink_link, acked]
      exact room.2 fits
    · rw [State.modLink_link, acked, rank]
      decide
  · have consecutive := sequence.consecutive
    rw [list] at consecutive
    obtain ⟨oldest, behind⟩ := consecutive
    have short := capacity.inFlight.trans capacity.limit
    rw [list, List.length_cons] at short
    have kept : (rest.map fun g => if g.seq = f.seq then { g with sent := false } else g) = rest := by
      refine (List.map_congr_left fun g hg => if_neg ?_).trans (List.map_id rest)
      rw [← headSeq, oldest]
      exact seq_ne_of_mem_tail behind (by simp only [Config.inFlightCapacity] at short; omega) hg
    rw [State.modLink_link, if_neg fun h => absurd (room.1 h.2) (Nat.not_le.2 full), State.modLink_modLink]
    refine State.modLink_congr ?_
    dsimp only
    rw [list, List.map_cons, if_pos headSeq, kept]

end Sys2Proof.Machine
end

section
/-! SUPPORT. What a symbol and the silence limit are to a receiver in HUNT and to one that is ALIGNED (R61 to R64). -/

namespace Sys2Proof.Machine

/-- The link after a well-formed symbol, before the symbol acts: the silence timer restarted, the malformed run ended
(R63, R64). -/
def Link.timed (k : Link) : Link :=
  { k with rx := { k.rx with silenceTimer := .running k.config.silenceLimit, malformedRun := 0 } }

/-! ## A change of a link -/

theorem State.modLink_eq_self {s : State} {l : LinkId} {f : Link → Link} (h : f (s.link l) = s.link l) :
    s.modLink l f = s := (State.modLink_congr h).trans (State.modLink_id s l)

/-- Happenings that change a link alike end alike. -/
theorem next_finish_congr {s : State} {l : LinkId} {f g : Link → Link} (h : f (s.link l) = g (s.link l)) :
    (.next (s.modLink l f).finish : Host.Outcome State Fault Refusal) = .next (s.modLink l g).finish := by
  rw [State.modLink_congr h]

/-! ## The line examined (R61) -/

section
variable {s : State} {l : LinkId}

theorem exec_symbolArrival (s : State) (l : LinkId) (sym : Symbol) :
    exec (.symbolArrival l sym) s = s.happening (s.link l).examines (·.receiveSymbol l sym) := rfl

theorem exec_silenceTimerExpiry (s : State) (l : LinkId) : exec (.silenceTimerExpiry l) s =
    s.happening ((s.link l).examines && (s.link l).rx.silenceTimer.hasRunOut) (·.silenceExpiry l) := rfl

theorem exec_symbolArrival_of (hr : s.inReset = false) (examines : (s.link l).examines = true) (sym : Symbol) :
    exec (.symbolArrival l sym) s = .next (s.receiveSymbol l sym).finish := by
  rw [exec_symbolArrival, State.happening_of hr examines]

theorem exec_silenceTimerExpiry_of (hr : s.inReset = false) (examines : (s.link l).examines = true)
    (out : (s.link l).rx.silenceTimer = .running 0) :
    exec (.silenceTimerExpiry l) s = .next (s.silenceExpiry l).finish := by
  rw [exec_silenceTimerExpiry, State.happening_of hr (by rw [examines, (Timer.hasRunOut_iff _).2 out]; rfl)]

theorem Link.examines_iff (k : Link) :
    k.examines = true ↔ k.config.mode = .normal ∧ k.control.state.running = true := by simp [Link.examines]

theorem Link.examines_eq_false {k : Link}
    (h : k.config.mode = .loop ∨ k.control.state = .disabled ∨ k.control.state = .fault) : k.examines = false := by
  rcases h with h | h | h <;> simp [Link.examines, h, LinkState.running]

theorem SymbolKind.ne_malformed_of_aligns {kind : SymbolKind} (h : kind.aligns = true) : kind ≠ .malformed := by
  rintro rfl
  cases h

/-! ## The symbol by alignment -/

theorem State.receiveSymbol_hunt {sym : Symbol} (hunt : (s.link l).rx.alignment = .hunt)
    (wellFormed : decodeSymbol sym ≠ .malformed) : s.receiveSymbol l sym =
      (s.modLink l Link.restartSilence).huntSymbol l (sym.extractLsb' 0 16) (decodeSymbol sym) := by
  simp only [State.receiveSymbol, if_neg wellFormed, State.modLink_link, Link.restartSilence, hunt]

theorem State.receiveSymbol_hunt_malformed {sym : Symbol} (hunt : (s.link l).rx.alignment = .hunt)
    (malformed : decodeSymbol sym = .malformed) :
    s.receiveSymbol l sym = s.modLink l fun k => { k with rx := { k.rx with huntRun := 0 } } := by
  simp only [State.receiveSymbol, if_pos malformed, hunt]
  rw [malformed]
  rfl

theorem State.receiveSymbol_aligned {sym : Symbol} (aligned : (s.link l).rx.alignment = .aligned)
    (wellFormed : decodeSymbol sym ≠ .malformed) : s.receiveSymbol l sym =
      (s.modLink l Link.timed).alignedSymbol l (sym.extractLsb' 0 16) (decodeSymbol sym) := by
  simp only [State.receiveSymbol, if_neg wellFormed, State.modLink_link, Link.restartSilence, aligned,
    State.modLink_modLink]
  rfl

theorem State.receiveSymbol_aligned_malformed {sym : Symbol} (aligned : (s.link l).rx.alignment = .aligned)
    (malformed : decodeSymbol sym = .malformed) : s.receiveSymbol l sym = s.malformedSymbol l := by
  simp only [State.receiveSymbol, if_pos malformed, aligned]

theorem State.silenceExpiry_hunt (hunt : (s.link l).rx.alignment = .hunt) : s.silenceExpiry l =
    s.modLink l fun k => { k with
      rx := { k.rx with huntRun := 0, silenceTimer := .running k.config.silenceLimit } } := by
  simp only [State.silenceExpiry, hunt]
  rfl

theorem State.silenceExpiry_aligned (aligned : (s.link l).rx.alignment = .aligned) :
    s.silenceExpiry l = s.lineLoss l := by
  simp only [State.silenceExpiry, aligned]

/-! ## Alignment (R62, R123) -/

/-- The receiver that the third IDLE or HELLO aligned still examines the line. -/
theorem Link.align_examines {k : Link} (h : k.examines = true) : k.align.examines = true := by
  rw [Link.examines_iff] at h ⊢
  refine ⟨h.1, ?_⟩
  unfold Link.align
  dsimp only
  split
  · rfl
  · exact h.2

/-- The third IDLE or HELLO in a row acts as it does on the receiver it has aligned (R62). -/
theorem State.receiveSymbol_aligns {sym : Symbol} (hunt : (s.link l).rx.alignment = .hunt)
    (aligns : (decodeSymbol sym).aligns = true) (third : 2 ≤ (s.link l).rx.huntRun) :
    s.receiveSymbol l sym = (s.modLink l Link.align).receiveSymbol l sym := by
  have wellFormed := SymbolKind.ne_malformed_of_aligns aligns
  rw [State.receiveSymbol_hunt hunt wellFormed,
    State.receiveSymbol_aligned (by rw [State.modLink_link]; rfl) wellFormed, State.huntSymbol, if_pos aligns,
    if_pos (by rw [State.modLink_link]; exact third), State.modLink_modLink, State.modLink_modLink]
  rfl

end

/-! ## The receiver's law (R61, R62, R67) -/

theorem State.ReceiverLaw.link {s : State} (h : s.ReceiverLaw) (l : LinkId) : (s.link l).ReceiverLaw := by
  cases l
  · exact h.a
  · exact h.b

theorem Link.ReceiverLaw.examines_of_aligned {k : Link} (law : k.ReceiverLaw) (h : k.rx.alignment = .aligned) :
    k.examines = true := by
  obtain ⟨normal, state⟩ := law.aligned h
  refine (Link.examines_iff k).2 ⟨normal, ?_⟩
  rcases state with training | carrying
  · rw [training]; rfl
  · exact LinkState.carrying_imp_running carrying

theorem Link.ReceiverLaw.assembly_eq_none {k : Link} (law : k.ReceiverLaw) (h : k.control.state = .training) :
    k.rx.assembly = none := by
  rw [← Option.not_isSome_iff_eq_none]
  intro assembling
  have carrying := (law.assembly assembling).2
  rw [h] at carrying
  cases carrying

/-! ## Line loss (R64) -/

section
variable {s : State} {l : LinkId}

/-- Damage to a frame under assembly, with the NAK request of the flag rule; nothing where there is none (R69, R73). -/
theorem Link.damageAssembly_eq (k : Link) : k.damageAssembly = { k with
    rx := { k.rx with assembly := none, nakSent := k.rx.nakSent || k.rx.assembly.isSome }
    tx := { k.tx with nakRequest := k.tx.nakRequest || (k.rx.assembly.isSome && !k.rx.nakSent) } } := by
  rcases k with ⟨_, _, _, _, ⟨_, _, _, _, asm, _, nak⟩, _, _, _, _⟩
  cases asm <;> cases nak <;> simp [Link.damageAssembly, Link.damage, Link.requestNak]

theorem Link.damageAssembly_of_none {k : Link} (h : k.rx.assembly = none) : k.damageAssembly = k := by
  rw [Link.damageAssembly, h]
  rfl

theorem Link.damageAssembly_malformedRun (k : Link) : k.damageAssembly.rx.malformedRun = k.rx.malformedRun := by
  rw [Link.damageAssembly_eq]

theorem State.malformedSymbol_of_lt (few : (s.link l).rx.malformedRun < 3) :
    s.malformedSymbol l = s.modLink l fun k => { k with
      rx := { k.rx with
        malformedRun := k.rx.malformedRun + 1, assembly := none, nakSent := k.rx.nakSent || k.rx.assembly.isSome }
      tx := { k.tx with nakRequest := k.tx.nakRequest || (k.rx.assembly.isSome && !k.rx.nakSent) } } := by
  unfold State.malformedSymbol
  dsimp only
  rw [State.modLink_link, Link.damageAssembly_malformedRun, if_neg (Nat.not_le.2 few), State.modLink_modLink]
  exact State.modLink_congr (by rw [Link.damageAssembly_eq])

theorem State.malformedSymbol_of_le (fourth : 3 ≤ (s.link l).rx.malformedRun) :
    s.malformedSymbol l = (s.modLink l Link.damageAssembly).lineLoss l := by
  unfold State.malformedSymbol
  dsimp only
  rw [State.modLink_link, Link.damageAssembly_malformedRun, if_pos fourth]

theorem State.lineLoss_training (h : s.linkState l = .training) : s.lineLoss l = s.modLink l fun k => { k with
    rx := { k.rx with
      alignment := .hunt, huntRun := 0, malformedRun := 0, assembly := none
      silenceTimer := .running k.config.silenceLimit }
    control := { k.control with state := .hunting, peer := none } } := by
  rw [State.linkState] at h
  simp only [State.lineLoss, State.modLink_linkState, Link.restartSilence, h, State.modLink_modLink]

theorem State.lineLoss_carrying (h : s.linkState l = .up ∨ s.linkState l = .draining) :
    s.lineLoss l = (s.modLink l Link.misaligned).faultLink l .lineLost := by
  rw [State.linkState] at h
  rcases h with h | h <;> simp only [State.lineLoss, State.modLink_linkState, Link.restartSilence, h] <;> rfl

/-- An UP or DRAINING link that loses the line enters FAULT, whatever its transmitter and receiver were before. -/
theorem State.lineLoss_wentDown (hs : s.SweepLaw) (h : s.linkState l = .up ∨ s.linkState l = .draining)
    {f : Link → Link} (hf : (s.link l).LineChange f) : s.WentDown ((s.modLink l f).lineLoss l) l (some .lineLost) := by
  have state : (s.modLink l f).linkState l = s.linkState l := by
    rw [State.modLink_linkState, hf]
    rfl
  rw [State.lineLoss_carrying (by rw [state]; exact h), State.modLink_modLink]
  refine State.faultLink_wentDown hs (LinkState.running_of_carrying h) ?_ _
  rw [Link.LineChange, hf]
  rfl

end

end Sys2Proof.Machine
end

section
/-! STATEMENTS. Alignment and line loss. -/

namespace Sys2Proof.Machine

/-- Settles O46: one lemma for each way a symbol or the silence limit meets a receiver in HUNT. -/
theorem huntAligns : Obligations.HuntAligns := by
  intro s l sym hr examines hunt
  have arrives := exec_symbolArrival_of hr examines sym
  refine ⟨fun aligns => ⟨fun short => ?_, fun third => ?_⟩, fun other wellFormed => ?_, fun malformed => ?_,
    fun out => ?_⟩
  · rw [arrives, State.receiveSymbol_hunt hunt (SymbolKind.ne_malformed_of_aligns aligns), State.huntSymbol,
      if_pos aligns, if_neg (by rw [State.modLink_link]; exact Nat.not_le.2 short), State.modLink_modLink]
    rfl
  · have examined : ((s.modLink l Link.align).link l).examines = true := by
      rw [State.modLink_link]
      exact Link.align_examines examines
    have aligned := exec_symbolArrival_of ((State.modLink_inReset _ _ _).trans hr) examined sym
    exact (arrives.trans (by rw [State.receiveSymbol_aligns hunt aligns third])).trans aligned.symm
  · rw [arrives, State.receiveSymbol_hunt hunt wellFormed, State.huntSymbol,
      if_neg (by rw [other]; exact Bool.false_ne_true), State.modLink_modLink]
    rfl
  · rw [arrives, State.receiveSymbol_hunt_malformed hunt malformed]
  · rw [exec_silenceTimerExpiry_of hr examines out, State.silenceExpiry_hunt hunt]

/-- Settles O47: the fourth malformed symbol in a row and silence end in the same line loss, after damage that leaves a
TRAINING link, which has no frame under assembly, as it was. -/
theorem lineLossByNoiseOrSilence : Obligations.LineLossByNoiseOrSilence := by
  intro s l sym hr receivers sweep aligned lost
  have law := receivers.link l
  have examines := law.examines_of_aligned aligned
  have untouched (training : s.linkState l = .training) : (s.link l).rx.assembly = none :=
    law.assembly_eq_none training
  have losing {c : Instr} {f : Link → Link} (hf : (s.link l).LineChange f)
      (unchanged : s.linkState l = .training → f (s.link l) = s.link l)
      (hc : exec c s = .next ((s.modLink l f).lineLoss l).finish) : lost c := by
    refine ⟨fun training => ?_, fun carrying => ⟨_, hc, State.lineLoss_wentDown sweep carrying hf⟩⟩
    rw [hc, State.modLink_eq_self (unchanged training), State.lineLoss_training training]
    refine next_finish_congr ?_
    rw [← untouched training]
  have arrives := exec_symbolArrival_of hr examines sym
  refine ⟨fun malformed few => ?_, fun malformed fourth => ?_, fun out => ?_, fun running => ?_⟩
  · rw [arrives, State.receiveSymbol_aligned_malformed aligned malformed, State.malformedSymbol_of_lt few]
  · refine losing (f := Link.damageAssembly) ?_ ?_ ?_
    · rw [Link.LineChange, Link.damageAssembly_eq]
    · exact fun training => Link.damageAssembly_of_none (untouched training)
    · rw [arrives, State.receiveSymbol_aligned_malformed aligned malformed, State.malformedSymbol_of_le fourth]
  · refine losing (f := fun k => k) rfl (fun _ => rfl) ?_
    rw [exec_silenceTimerExpiry_of hr examines out, State.silenceExpiry_aligned aligned, State.modLink_id]
  · rw [exec_silenceTimerExpiry, State.happening_not_runOut running]

end Sys2Proof.Machine
end

section
/-! SUPPORT. FRAME_START, DATA and the symbols of a record read back as what they were made from (R68, R164). -/

namespace Sys2Proof.Machine

/-! ## FRAME_START and DATA -/

theorem decodeSymbol_data (p : Payload) : decodeSymbol (symbolOf 0b10 p) = .data p := by
  rw [decodeSymbol, symbolOf_alignment, symbolOf_type, symbolOf_payload]
  rfl

theorem decodeSymbol_frameStart (seq seen : Seq) {count : Nat} (one : 1 ≤ count) (most : count ≤ 16) :
    decodeSymbol (symbolOf 0b01 (frameStartPayload seq seen count)) = .frameStart seq seen count := by
  have seqField : (frameStartPayload seq seen count).extractLsb' 10 6 = seq :=
    (extractLsb'_append_left (seq ++ seen) (BitVec.ofNat 4 (count - 1)) 6).trans
      ((extractLsb'_append_left seq seen 0).trans BitVec.extractLsb'_eq_self)
  have seenField : (frameStartPayload seq seen count).extractLsb' 4 6 = seen :=
    (extractLsb'_append_left (seq ++ seen) (BitVec.ofNat 4 (count - 1)) 0).trans (extractLsb'_append_right seq seen)
  have countField : (frameStartPayload seq seen count).extractLsb' 0 4 = BitVec.ofNat 4 (count - 1) :=
    extractLsb'_append_right (seq ++ seen) (BitVec.ofNat 4 (count - 1))
  have value : (BitVec.ofNat 4 (count - 1)).toNat + 1 = count := by
    rw [BitVec.toNat_ofNat]
    omega
  rw [decodeSymbol, symbolOf_alignment, symbolOf_type, symbolOf_payload, seqField, seenField, countField, value]
  rfl

/-! ## The symbols of a record -/

section
variable (kind : BitVec 2) (tag : Tag) (mask : LaneMask) (high : BitVec 4)

theorem firstPayload_kind : (firstPayload kind tag mask high).extractLsb' 14 2 = kind :=
  (extractLsb'_append_left (kind ++ tag ++ mask) high 10).trans
    ((extractLsb'_append_left (kind ++ tag) mask 6).trans
      ((extractLsb'_append_left kind tag 0).trans BitVec.extractLsb'_eq_self))

theorem firstPayload_tag : (firstPayload kind tag mask high).extractLsb' 8 6 = tag :=
  (extractLsb'_append_left (kind ++ tag ++ mask) high 4).trans
    ((extractLsb'_append_left (kind ++ tag) mask 0).trans (extractLsb'_append_right kind tag))

theorem firstPayload_mask : (firstPayload kind tag mask high).extractLsb' 4 4 = mask :=
  (extractLsb'_append_left (kind ++ tag ++ mask) high 0).trans (extractLsb'_append_right (kind ++ tag) mask)

theorem firstPayload_high : (firstPayload kind tag mask high).extractLsb' 0 4 = high :=
  extractLsb'_append_right (kind ++ tag ++ mask) high

theorem firstPayload_low : (firstPayload kind tag 0 0).extractLsb' 0 8 = 0#8 := by
  rw [firstPayload, BitVec.append_assoc]
  exact extractLsb'_append_right (kind ++ tag) (0#4 ++ 0#4)

end

theorem offset_joined (o : Offset) : (o.extractLsb' 16 4 ++ o.extractLsb' 0 16 : BitVec 20) = o := by
  rw [BitVec.extractLsb'_append_extractLsb'_eq_extractLsb' (show 16 = 0 + 16 from rfl)]
  exact BitVec.extractLsb'_eq_self

theorem data_joined (d : Word) : (d.extractLsb' 16 16 ++ d.extractLsb' 0 16 : BitVec 32) = d := by
  rw [BitVec.extractLsb'_append_extractLsb'_eq_extractLsb' (show 16 = 0 + 16 from rfl)]
  exact BitVec.extractLsb'_eq_self

end Sys2Proof.Machine
end

section
/-! SUPPORT. A frame under assembly collects the symbols of its records, and its check ends it (R67 to R70, R165). -/

namespace Sys2Proof.Machine

/-! ## One DATA symbol -/

section
variable {asm : Assembly} {p : Payload}

/-- Between records, with some still to come, a DATA symbol begins one (R68). -/
theorem Assembly.collect_record (between : asm.part = none) (more : asm.records.length < asm.count) :
    asm.collect p = Assembly.beginRecord { asm with check := crcPayload asm.check p } p := by
  rw [Assembly.collect, between]
  exact if_pos more

/-- After the last record, the symbol that is the running check ends the frame undamaged (R70). -/
theorem Assembly.collect_check (between : asm.part = none) (last : asm.count ≤ asm.records.length)
    (check : p = asm.check) :
    asm.collect p = .undamaged asm.seq asm.seen asm.records := by
  simp only [Assembly.collect, between]
  rw [if_neg (Nat.not_lt.2 last), if_pos check]

theorem Assembly.collect_badCheck (between : asm.part = none) (last : asm.count ≤ asm.records.length)
    (check : p ≠ asm.check) :
    asm.collect p = .damaged := by
  simp only [Assembly.collect, between]
  rw [if_neg (Nat.not_lt.2 last), if_neg check]

theorem Assembly.beginRecord_write (kind : p.extractLsb' 14 2 = 0#2) (mask : p.extractLsb' 4 4 ≠ 0#4) :
    asm.beginRecord p = .more { asm with
      part := some (.first (p.extractLsb' 8 6) (p.extractLsb' 4 4) (p.extractLsb' 0 4)) } := by
  rw [Assembly.beginRecord, kind]
  exact if_neg mask

/-- A WRITE with lane mask 0 is illegal in place (R68). -/
theorem Assembly.beginRecord_noLane (kind : p.extractLsb' 14 2 = 0#2) (mask : p.extractLsb' 4 4 = 0#4) :
    asm.beginRecord p = .damaged := by
  rw [Assembly.beginRecord, kind]
  exact if_pos mask

/-- A control record with lane-mask or offset bits is illegal in place (R68). -/
theorem Assembly.beginRecord_extraBits (kind : p.extractLsb' 14 2 ≠ 0#2) (low : p.extractLsb' 0 8 ≠ 0#8) :
    asm.beginRecord p = .damaged := by
  have notWrite : (p.extractLsb' 14 2).toNat ≠ 0 := fun h => kind (BitVec.eq_of_toNat_eq h)
  unfold Assembly.beginRecord
  dsimp only
  split
  next h => exact absurd h notWrite
  all_goals exact if_neg low

end

/-! ## The symbols of a frame -/

/-- The frame under assembly takes these DATA symbols one after another, none of them ending it, and is then `last`. -/
def Assembly.Gathers (asm : Assembly) : List Payload → Assembly → Prop
  | [], last => last = asm
  | p :: ps, last => ∃ next : Assembly, asm.collect p = .more next ∧ next.Gathers ps last

/-- The frame under assembly after the symbols of these records: each is read with its lanes outside the mask 0, and
every symbol has entered the running check (R68, R165). -/
def Assembly.gathered (asm : Assembly) (rs : List Record) : Assembly :=
  { asm with
    records := asm.records ++ rs.map Record.received
    check := (rs.flatMap recordPayloads).foldl crcPayload asm.check }

theorem Assembly.Gathers.append {asm mid last : Assembly} {ps qs : List Payload} (first : asm.Gathers ps mid)
    (second : mid.Gathers qs last) : asm.Gathers (ps ++ qs) last := by
  induction ps generalizing asm with
  | nil =>
    cases first
    exact second
  | cons p ps ih =>
    obtain ⟨next, more, rest⟩ := first
    exact ⟨next, more, ih rest⟩

/-- A record that is legal in place: a WRITE has a lane (R68). -/
def Record.HasLane (r : Record) : Prop := ∀ t o m d, r = .write t o m d → m ≠ 0

/-- A control record is one symbol (Table 12-3). -/
theorem Assembly.beginRecord_control {r : Record} (control : r.isWrite = false) : ∃ p, recordPayloads r = [p] ∧
    ∀ asm : Assembly, asm.beginRecord p = .more { asm with records := asm.records ++ [r.received] } := by
  cases r with
  | write => cases control
  | sweepOpen t | sweepClose t | stale t =>
    refine ⟨_, rfl, fun asm => ?_⟩
    rw [Assembly.beginRecord, firstPayload_kind, firstPayload_tag, firstPayload_low]
    rfl

theorem Assembly.gathers_control {asm : Assembly} (between : asm.part = none)
    (more : asm.records.length < asm.count) {r : Record} (control : r.isWrite = false) :
    asm.Gathers (recordPayloads r) (asm.gathered [r]) := by
  obtain ⟨p, symbol, begun⟩ := Assembly.beginRecord_control control
  rw [symbol]
  refine ⟨_, (Assembly.collect_record between more).trans (begun _), ?_⟩
  simp only [Assembly.Gathers, Assembly.gathered, List.flatMap_cons, List.flatMap_nil, List.append_nil, symbol,
    List.foldl_cons, List.foldl_nil, List.map_cons, List.map_nil]

/-- A WRITE is four symbols: the tag and lanes, the offset, and the two halves of the data (Table 12-3). -/
theorem Assembly.gathers_write {asm : Assembly} (between : asm.part = none) (more : asm.records.length < asm.count)
    (t : Tag) (o : Offset) {m : LaneMask} (d : Word) (lane : m ≠ 0) :
    asm.Gathers (recordPayloads (.write t o m d)) (asm.gathered [.write t o m d]) := by
  have first : asm.collect (firstPayload 0b00#2 t m (o.extractLsb' 16 4)) = .more { asm with
      check := crcPayload asm.check (firstPayload 0b00#2 t m (o.extractLsb' 16 4))
      part := some (.first t m (o.extractLsb' 16 4)) } := by
    rw [Assembly.collect_record between more, Assembly.beginRecord_write (firstPayload_kind _ _ _ _)
      (by rw [firstPayload_mask]; exact lane), firstPayload_tag, firstPayload_mask, firstPayload_high]
  refine ⟨_, first, _, rfl, _, rfl, _, rfl, ?_⟩
  simp only [Assembly.Gathers, Assembly.gathered, between, List.map_cons, List.map_nil, Record.received, List.flatMap_cons,
    List.flatMap_nil, List.append_nil, recordPayloads, List.foldl_cons, List.foldl_nil, offset_joined, data_joined]
  rfl

theorem Assembly.gathers_record {asm : Assembly} (between : asm.part = none) (more : asm.records.length < asm.count)
    {r : Record} (legal : r.HasLane) : asm.Gathers (recordPayloads r) (asm.gathered [r]) := by
  cases r with
  | write t o m d => exact Assembly.gathers_write between more t o d (legal t o m d rfl)
  | sweepOpen | sweepClose | stale => exact Assembly.gathers_control between more rfl

theorem Assembly.gathered_gathered (asm : Assembly) (rs rs' : List Record) :
    (asm.gathered rs).gathered rs' = asm.gathered (rs ++ rs') := by
  simp only [Assembly.gathered, List.map_append, List.append_assoc, List.flatMap_append, List.foldl_append]

theorem Assembly.gathers_records {asm : Assembly} (between : asm.part = none) {rs : List Record}
    (room : asm.records.length + rs.length ≤ asm.count) (legal : ∀ r ∈ rs, r.HasLane) :
    asm.Gathers (rs.flatMap recordPayloads) (asm.gathered rs) := by
  induction rs generalizing asm with
  | nil => simp [Assembly.Gathers, Assembly.gathered]
  | cons r rs ih =>
    rw [List.length_cons] at room
    have behind : (asm.gathered [r]).Gathers (rs.flatMap recordPayloads) ((asm.gathered [r]).gathered rs) := by
      refine ih (asm := asm.gathered [r]) between ?_ fun r' hr => legal r' (List.mem_cons_of_mem _ hr)
      simp only [Assembly.gathered, List.length_append, List.length_map, List.length_singleton]
      omega
    rw [Assembly.gathered_gathered, List.singleton_append] at behind
    exact (Assembly.gathers_record between (by omega) (legal r List.mem_cons_self)).append behind

end Sys2Proof.Machine
end

section
/-! SUPPORT. A settled state, which the end of a happening leaves as it is, stays settled while a receiver works. -/

namespace Sys2Proof.Machine

/-- The link's drain is complete (R128). -/
def State.Drained (s : State) (l : LinkId) : Prop :=
  (s.link l).control.state = .draining ∧ (s.link l).capture.queue = [] ∧ (s.link l).tx.retransmit = [] ∧
    ¬ s.noticeOwed l

/-- Nothing that a happening ends with is left to do: no drain is complete (R128), no LOOP frame can start (R56), the
held write has had its room test (R139), and INTN is driven (R161). -/
structure State.Settled (s : State) : Prop where
  drain : ∀ l, ¬ s.Drained l
  loop : ∀ l, (s.link l).loopStart = s.link l
  room : s.roomTest = s
  intn : s.driveIntn = s

/-! ## The parts of the end of a happening -/

section
variable {s : State} {l : LinkId} {f : Link → Link}

theorem State.drainComplete_of_drained (h : s.Drained l) : s.drainComplete l = s.enterDown l none := if_pos h

theorem State.drainComplete_of_not (h : ¬ s.Drained l) : s.drainComplete l = s := if_neg h

theorem State.linkState_eq_line (s : State) (l : LinkId) : s.linkState l = (s.line l).2.1 := rfl

/-- Only the link that goes down changes its state. -/
theorem State.enterDown_linkState (s : State) (l l' : LinkId) :
    (s.enterDown l none).linkState l' = if l' = l then .disabled else s.linkState l' := by
  have line : (s.enterDown l none).line = (s.modLink l (·.goDown none)).line := by simp [State.enterDown]
  rw [State.linkState_eq_line, line, ← State.linkState_eq_line]
  split
  next h => rw [h, State.modLink_linkState, Link.goDown_eq]; rfl
  next h => rw [State.linkState, State.modLink_link_ne _ h, State.linkState]

theorem State.drainComplete_disabled {l' : LinkId} (h : s.linkState l' = .disabled) :
    (s.drainComplete l).linkState l' = .disabled := by
  by_cases drained : s.Drained l
  · rw [State.drainComplete_of_drained drained, State.enterDown_linkState, h, ite_self]
  · rw [State.drainComplete_of_not drained, h]

theorem State.Drained.disabled (h : s.Drained l) : (s.drainComplete l).linkState l = .disabled := by
  rw [State.drainComplete_of_drained h, State.enterDown_linkState, if_pos rfl]

theorem Link.startFrame_control (k : Link) : k.startFrame.control = k.control := by
  unfold Link.startFrame
  split <;> rfl

theorem Link.loopStart_control (k : Link) : k.loopStart.control = k.control := by
  unfold Link.loopStart
  split
  · exact k.startFrame_control
  · rfl

theorem Link.loopStart_normal {k : Link} (h : k.config.mode = .normal) : k.loopStart = k :=
  if_neg fun loop => by rw [h] at loop; cases loop.1

theorem State.finish_linkState (s : State) (l : LinkId) :
    s.finish.linkState l = ((s.drainComplete .a).drainComplete .b).linkState l := by
  have ended (t : State) : (t.roomTest.driveIntn).linkState l = t.linkState l := by
    rw [State.linkState_eq_line, State.driveIntn_line, State.roomTest_line, ← State.linkState_eq_line]
  have started (t : State) (l' : LinkId) : (t.modLink l' Link.loopStart).linkState l = t.linkState l := by
    by_cases h : l = l'
    · rw [h, State.modLink_linkState, Link.loopStart_control, State.linkState]
    · rw [State.linkState, State.modLink_link_ne _ h, State.linkState]
  rw [State.finish, ended, started, started]

/-- A link whose drain is complete does not stay DRAINING through the end of a happening (R128). -/
theorem State.not_drained_of_finish (h : s.finish = s) (l : LinkId) : ¬ s.Drained l := by
  have kept (l : LinkId) : ((s.drainComplete .a).drainComplete .b).linkState l = s.linkState l := by
    rw [← State.finish_linkState, h]
  have stays {l : LinkId} (drained : s.Drained l) :
      ((s.drainComplete .a).drainComplete .b).linkState l ≠ .disabled := by
    rw [kept, State.linkState, drained.1]
    decide
  have notA : ¬ s.Drained .a := fun drained => stays drained (State.drainComplete_disabled drained.disabled)
  have notB : ¬ s.Drained .b := fun drained =>
    stays drained (by rw [State.drainComplete_of_not notA, drained.disabled])
  cases l
  · exact notA
  · exact notB

@[simp] theorem State.roomTest_link (s : State) (l : LinkId) : s.roomTest.link l = s.link l := by
  rw [State.roomTest_eq]
  cases l <;> rfl

/-- A state that the end of a happening leaves as it is. -/
theorem State.settled_of_finish (h : s.finish = s) : s.Settled := by
  have drain := State.not_drained_of_finish h
  rw [State.finish, State.drainComplete_of_not (drain .a), State.drainComplete_of_not (drain .b)] at h
  have links (l : LinkId) : ((s.modLink .a Link.loopStart).modLink .b Link.loopStart).link l = s.link l := by
    simpa using congrArg (·.link l) h
  have loop (l : LinkId) : (s.link l).loopStart = s.link l := by
    cases l
    · exact links .a
    · exact links .b
  rw [State.modLink_eq_self (loop .a), State.modLink_eq_self (loop .b)] at h
  have host : s.roomTest.host = s.host := congrArg (·.host) h
  have room : s.roomTest = s := by rw [State.roomTest_eq, host]
  rw [room] at h
  exact ⟨drain, loop, room, h⟩

theorem State.Settled.finish (h : s.Settled) : s.finish = s := by
  rw [State.finish, State.drainComplete_of_not (h.drain .a), State.drainComplete_of_not (h.drain .b)]
  rw [State.modLink_eq_self (h.loop .a), State.modLink_eq_self (h.loop .b), h.room, h.intn]

end

/-! ## A change of a transmitter and a receiver -/

section
variable {s : State} {l : LinkId} {f : Link → Link}

theorem State.modLine_link (h : (s.link l).LineChange f) (l' : LinkId) :
    (s.modLink l f).link l' =
      { s.link l' with tx := ((s.modLink l f).link l').tx, rx := ((s.modLink l f).link l').rx } := by
  by_cases hl : l' = l
  · subst hl
    rw [State.modLink_link]
    exact h
  · rw [State.modLink_link_ne _ hl]

/-- The room test looks at no transmitter and no receiver (R139). -/
theorem State.roomTest_modLine (h : (s.link l).LineChange f) : (s.modLink l f).roomTest = s.roomTest.modLink l f := by
  have state (l' : LinkId) : (s.modLink l f).linkState l' = s.linkState l' := by
    rw [State.linkState, State.modLine_link h]
    rfl
  have target : (s.modLink l f).hostTarget = s.hostTarget := by
    simp only [State.hostTarget, State.modLink_host, State.modLink_window]
  have made (w : Window) : (s.modLink l f).captureMade w = s.captureMade w := by
    simp only [State.captureMade, state]
  have room (l' : LinkId) (w : Window) (o : Offset) :
      ((s.modLink l f).link l').roomForWrite w o = (s.link l').roomForWrite w o := by
    rw [State.modLine_link h]
    rfl
  have captureMade : (s.modLink l f).hostCaptureMade = s.hostCaptureMade := by
    simp only [State.hostCaptureMade, target, made]
  have eligible : (s.modLink l f).hostEligible = s.hostEligible := by
    simp only [State.hostEligible, State.modLink_host, target, made, room]
  simp only [State.roomTest, State.modLink_host, State.modLink_config, captureMade, eligible]
  split_ifs <;> cases l <;> rfl

theorem State.driveIntn_modLink (s : State) (l : LinkId) (f : Link → Link) :
    (s.modLink l f).driveIntn = s.driveIntn.modLink l f := by cases l <;> rfl

/-- A settled state stays settled where the receiver of a link in NORMAL mode changes, or its transmitter but for
the retransmit list. -/
theorem State.Settled.modLine (hs : s.Settled) (h : (s.link l).LineChange f) (normal : (s.link l).config.mode = .normal)
    (list : (f (s.link l)).tx.retransmit = (s.link l).tx.retransmit) : (s.modLink l f).Settled where
  drain l' := by
    rintro ⟨state, queue, empty, notice⟩
    have kept : ((s.modLink l f).link l').tx.retransmit = (s.link l').tx.retransmit := by
      by_cases hl : l' = l
      · subst hl
        rw [State.modLink_link, list]
      · rw [State.modLink_link_ne _ hl]
    rw [State.modLine_link h] at state queue
    refine hs.drain l' ⟨state, queue, kept ▸ empty, ?_⟩
    simpa only [State.noticeOwed, State.modLink_window] using notice
  loop l' := by
    by_cases hl : l' = l
    · subst hl
      rw [State.modLink_link]
      exact Link.loopStart_normal (by rw [h]; exact normal)
    · rw [State.modLink_link_ne _ hl]
      exact hs.loop l'
  room := by rw [State.roomTest_modLine h, hs.room]
  intn := by rw [State.driveIntn_modLink, hs.intn]

end

end Sys2Proof.Machine
end

section
/-! SUPPORT. FRAME_START and DATA at an ALIGNED receiver of an UP or DRAINING link (R67 to R73). -/

namespace Sys2Proof.Machine

/-! ## The NAK request (R73) -/

section
variable (k : Link)

theorem Link.requestNak_eq : k.requestNak = { k with
    rx := { k.rx with nakSent := true }, tx := { k.tx with nakRequest := k.tx.nakRequest || !k.rx.nakSent } } := by
  rcases k with ⟨_, _, _, _, ⟨_, _, _, _, _, _, nak⟩, _, _, _, _⟩
  cases nak <;> simp [Link.requestNak]

theorem Link.damage_eq : k.damage = { k with
    rx := { k.rx with assembly := none, nakSent := true }
    tx := { k.tx with nakRequest := k.tx.nakRequest || !k.rx.nakSent } } := by
  rw [Link.damage, Link.requestNak_eq]

/-- A frame under assembly that was damaged first has left the flag rule nothing to ask for again. -/
theorem Link.heard_requestNak : k.heard.requestNak = { k.heard with
    rx := { k.heard.rx with nakSent := true }
    tx := { k.tx with nakRequest := k.tx.nakRequest || !k.rx.nakSent } } := by
  have request :
      (k.tx.nakRequest || (k.rx.assembly.isSome && !k.rx.nakSent) || !(k.rx.nakSent || k.rx.assembly.isSome)) =
        (k.tx.nakRequest || !k.rx.nakSent) := by
    cases k.rx.nakSent <;> cases k.rx.assembly.isSome <;> simp
  rw [Link.requestNak_eq]
  simp only [Link.heard, request]

theorem Link.heard_damage : k.heard.damage = k.heard.requestNak := rfl

end

/-! ## FRAME_START (R67) -/

section
variable {k : Link} {count : Nat}

theorem Link.beginFrame_of_le (h : count ≤ k.config.frameClass.items) (seq seen : Seq) (p : Payload) :
    k.beginFrame seq seen count p = { k with rx := { k.rx with
      assembly := some { seq, seen, count, records := [], part := none, check := crcPayload crcStart p } } } :=
  if_neg (Nat.not_lt.2 h)

theorem Link.beginFrame_of_lt (h : k.config.frameClass.items < count) (seq seen : Seq) (p : Payload) :
    k.beginFrame seq seen count p = k.damage := if_pos h

end

section
variable {s : State} {l : LinkId}

theorem State.Hears.exec_frameStart (h : s.Hears l) (seq seen : Seq) {count : Nat} (one : 1 ≤ count)
    (most : count ≤ 16) :
    exec (.symbolArrival l (symbolOf 0b01 (frameStartPayload seq seen count))) s =
      .next (s.modLink l fun k => k.heard.beginFrame seq seen count (frameStartPayload seq seen count)).finish := by
  have decoded := decodeSymbol_frameStart seq seen one most
  rw [State.symbolArrival_aligned h _ (by rw [decoded]; nofun), decoded, State.symbolInUp, symbolOf_payload,
    State.modLink_modLink]
  simp only [Link.heard_eq]

/-! ## DATA (R65, R68, R70) -/

theorem State.Hears.exec_data (h : s.Hears l) (p : Payload) : exec (.symbolArrival l (symbolOf 0b10 p)) s =
    .next ((s.modLink l Link.timed).receiveData l p).finish := by
  have decoded := decodeSymbol_data p
  rw [State.symbolArrival_aligned h _ (by rw [decoded]; nofun), decoded, State.symbolInUp]
  rfl

variable {p : Payload} {asm : Assembly}

theorem State.receiveData_stray (h : (s.link l).rx.assembly = none) : s.receiveData l p = s := by
  rw [State.receiveData, h]

theorem State.receiveData_more {next : Assembly} (h : (s.link l).rx.assembly = some asm)
    (hc : asm.collect p = .more next) :
    s.receiveData l p = s.modLink l fun k => { k with rx := { k.rx with assembly := some next } } := by
  simp only [State.receiveData, h, hc]

theorem State.receiveData_damaged (h : (s.link l).rx.assembly = some asm) (hc : asm.collect p = .damaged) :
    s.receiveData l p = s.modLink l Link.damage := by
  simp only [State.receiveData, h, hc]

theorem State.receiveData_undamaged {seq seen : Seq} {items : List Record} (h : (s.link l).rx.assembly = some asm)
    (hc : asm.collect p = .undamaged seq seen items) : s.receiveData l p =
      (s.modLink l fun k => { k with rx := { k.rx with assembly := none } }).classifyFrame l seq seen items := by
  simp only [State.receiveData, h, hc]

/-! ## Classification (R71 to R73) -/

variable {seq seen : Seq} {items : List Record}

theorem State.classifyFrame_expected (h : seq = (s.link l).rx.receiveExpected) :
    s.classifyFrame l seq seen items = s.offerFrame l seen items := by
  rw [State.classifyFrame, classify, if_pos h]

theorem State.classifyFrame_duplicate (h : before seq (s.link l).rx.receiveExpected = true) :
    s.classifyFrame l seq seen items = s := by
  have other : seq ≠ (s.link l).rx.receiveExpected := by
    intro same
    rw [← same, before_self] at h
    cases h
  rw [State.classifyFrame, classify, if_neg other, if_pos h]

theorem State.classifyFrame_gap (other : seq ≠ (s.link l).rx.receiveExpected)
    (h : before seq (s.link l).rx.receiveExpected = false) :
    s.classifyFrame l seq seen items = s.modLink l Link.requestNak := by
  rw [State.classifyFrame, classify, if_neg other, if_neg (by rw [h]; exact Bool.false_ne_true)]

theorem State.offerFrame_of_noRoom (h : (s.link l).roomForFrame items.length = false) : s.offerFrame l seen items = s :=
  if_neg (by rw [h]; exact Bool.false_ne_true)

/-- In NORMAL mode the records enter the apply queue and the hold flag follows; the peer-hold-limit timer does not
(R55, R78, R79). -/
theorem Link.takeRecords_normal {k : Link} (normal : k.config.mode = .normal) (seen : Seq) (items : List Record) :
    k.takeRecords seen items = { k with apply := { k.apply with
      queue := k.apply.queue ++ items.map fun r => { record := r, seen := some seen, drainPoint := false }
      holdFlag := k.flagAt (k.apply.queue.length + items.length) } } := by
  simp only [Link.takeRecords, Link.evalHold_eq, Link.loopTimer, normal, reduceCtorEq, false_and, if_false,
    List.length_append, List.length_map]
  rfl

theorem State.offerHead_of_seen {v : Seq} (h : (s.link l).apply.queue.head?.bind ApplyEntry.seen = some v) :
    s.offerHead l = s.modLink l fun k => { k with conflict := k.horizonAfter v } := by
  simp only [State.offerHead, h, State.offerHorizon_eq]

/-- A frame with room on a link in NORMAL mode is taken, and a record that became the head offers the seen value
(R72, R78, R97, R98). -/
theorem State.offerFrame_of_room (normal : (s.link l).config.mode = .normal) (nonempty : items ≠ [])
    (room : (s.link l).roomForFrame items.length = true) :
    s.offerFrame l seen items = s.modLink l fun k => { k with
      rx := { k.rx with receiveExpected := k.rx.receiveExpected + 1, nakSent := false }
      apply := { k.apply with
        queue := k.apply.queue ++ items.map fun r => { record := r, seen := some seen, drainPoint := false }
        holdFlag := k.flagAt (k.apply.queue.length + items.length) }
      conflict := if k.apply.queue = [] then k.horizonAfter seen else k.conflict } := by
  have taken : s.offerFrame l seen items =
      let s' := s.modLink l fun k => { k.takeRecords seen items with
        rx := { k.rx with receiveExpected := k.rx.receiveExpected + 1, nakSent := false } }
      if (s.link l).apply.queue.isEmpty then s'.offerHead l else s' := if_pos room
  obtain ⟨r, rs, rfl⟩ := List.exists_cons_of_ne_nil nonempty
  rw [taken]
  dsimp only
  split
  next empty =>
    rw [List.isEmpty_iff] at empty
    rw [State.offerHead_of_seen (v := seen) (by
        rw [State.modLink_link, Link.takeRecords_normal normal, empty]
        rfl),
      State.modLink_modLink]
    refine State.modLink_congr ?_
    rw [Link.takeRecords_normal normal, if_pos empty]
    rfl
  next queued =>
    rw [List.isEmpty_iff] at queued
    refine State.modLink_congr ?_
    rw [Link.takeRecords_normal normal, if_neg queued]

end

end Sys2Proof.Machine
end

section
/-! STATEMENTS. What reaches a receiver without a whole frame, and a frame that arrives whole. -/

namespace Sys2Proof.Machine

/-! ## Damage and stray symbols -/

theorem FrameClass.items_ge {c : FrameClass} {count : Nat} (most : count ≤ 16) (h : c = .sixteen ∨ count ≤ 8) :
    count ≤ c.items := by
  rcases h with rfl | h
  · exact most
  · cases c <;> simp only [FrameClass.items] <;> omega

/-- Settles O60: each DATA symbol is decided by what the frame under assembly collects of it. -/
theorem damagedFramesDiscarded : Obligations.DamagedFramesDiscarded := by
  refine ⟨fun s l sym deaf => ?_, fun s l hears => ?_⟩
  · rw [exec_symbolArrival, State.happening_not (Link.examines_eq_false deaf)]
  intro heard damaged answers
  refine ⟨fun seq seen count one most => ?_, fun p => ?_⟩
  · have started := hears.exec_frameStart seq seen one most
    refine ⟨fun within => started.trans ?_, fun class8 above => started.trans ?_⟩
    · refine next_finish_congr ?_
      exact Link.beginFrame_of_le (k := (s.link l).heard) (FrameClass.items_ge most within) seq seen _
    · refine next_finish_congr ?_
      have aboveClass : (s.link l).heard.config.frameClass.items < count := by
        rw [show (s.link l).heard.config.frameClass = .eight from class8]
        exact above
      rw [Link.beginFrame_of_lt aboveClass, Link.heard_damage, Link.heard_requestNak]
      rfl
  · have arrives := hears.exec_data p
    have link : (s.modLink l Link.timed).link l = (s.link l).timed := State.modLink_link _ _ _
    refine ⟨fun none => ?_, fun asm assembling between => ?_⟩
    · rw [State.receiveData_stray (by rw [link]; exact none)] at arrives
      exact arrives
    · have discards (hc : asm.collect p = .damaged) : answers (.symbolArrival l (symbolOf 0b10 p)) damaged := by
        rw [State.receiveData_damaged (by rw [link]; exact assembling) hc, State.modLink_modLink] at arrives
        refine arrives.trans (next_finish_congr ?_)
        exact Link.damage_eq _
      refine ⟨fun more kind mask => discards ?_, fun more kind low => discards ?_, fun last check => discards ?_⟩
      · rw [Assembly.collect_record between more, Assembly.beginRecord_noLane kind mask]
      · rw [Assembly.collect_record between more, Assembly.beginRecord_extraBits kind low]
      · exact Assembly.collect_badCheck between last check

/-! ## A frame that arrives whole -/

/-- The link while a frame is under assembly: what was under assembly before has been damaged (R67, R69). -/
def Link.assembling (asm : Assembly) (k : Link) : Link :=
  { k.heard with rx := { k.heard.rx with assembly := some asm } }

/-- A frame of which only the FRAME_START has arrived (R67, R165). -/
def Assembly.start (seq seen : Seq) (count : Nat) : Assembly :=
  { seq, seen, count, records := [], part := none, check := crcPayload crcStart (frameStartPayload seq seen count) }

theorem Link.assembling_lineChange (k : Link) (asm : Assembly) : k.LineChange (Link.assembling asm) := rfl

theorem runAll_cons {c : Instr} {s t : State} (h : exec c s = .next t) (cs : List Instr) :
    runAll (c :: cs) s = runAll cs t := by rw [runAll, h]

theorem runAll_append (cs ds : List Instr) (s : State) : runAll (cs ++ ds) s = (runAll cs s).bind (runAll ds) := by
  induction cs generalizing s with
  | nil => rfl
  | cons c cs ih =>
    rw [List.cons_append, runAll, runAll]
    split
    · exact ih _
    · rfl

section
variable {s : State} {l : LinkId} {asm : Assembly}

theorem State.Hears.assembling (h : s.Hears l) (asm : Assembly) : (s.modLink l (Link.assembling asm)).Hears l where
  running := (State.modLink_inReset _ _ _).trans h.running
  normal := by rw [State.modLink_link]; exact h.normal
  state := by rw [State.modLink_linkState]; exact h.state
  aligned := by rw [State.modLink_link]; exact h.aligned

theorem State.Settled.assembling (h : s.Settled) (normal : (s.link l).config.mode = .normal) (asm : Assembly) :
    (s.modLink l (Link.assembling asm)).finish = s.modLink l (Link.assembling asm) :=
  (h.modLine (Link.assembling_lineChange _ _) normal rfl).finish

/-- The state while a frame is under assembly, after the next symbol restarted the silence timer once more. -/
theorem State.modLink_assembling_timed (s : State) (l : LinkId) (asm : Assembly) :
    (s.modLink l (Link.assembling asm)).modLink l Link.timed = s.modLink l (Link.assembling asm) :=
  State.modLink_modLink _ _ _ _

/-- FRAME_START at a settled link begins a frame (R67). -/
theorem State.Hears.exec_frameStart_assembling (h : s.Hears l) (settled : s.Settled) (seq seen : Seq) {count : Nat}
    (one : 1 ≤ count) (most : count ≤ (s.link l).config.frameClass.items) :
    exec (.symbolArrival l (symbolOf 0b01 (frameStartPayload seq seen count))) s =
      .next (s.modLink l (Link.assembling (.start seq seen count))) := by
  have sixteen : count ≤ 16 := most.trans (by cases (s.link l).config.frameClass <;> decide)
  rw [h.exec_frameStart seq seen one sixteen, ← settled.assembling h.normal]
  refine next_finish_congr ?_
  exact Link.beginFrame_of_le (k := (s.link l).heard) most seq seen _

/-- DATA symbols that a frame under assembly gathers leave it under assembly (R68). -/
theorem State.Hears.runAll_gathers (h : s.Hears l) (settled : s.Settled) {ps : List Payload} {last : Assembly}
    (gathers : asm.Gathers ps last) :
    runAll ((ps.map (symbolOf 0b10)).map (Instr.symbolArrival l)) (s.modLink l (Link.assembling asm)) =
      some (s.modLink l (Link.assembling last)) := by
  induction ps generalizing asm with
  | nil =>
    cases gathers
    rfl
  | cons p ps ih =>
    obtain ⟨next, more, rest⟩ := gathers
    have step : exec (.symbolArrival l (symbolOf 0b10 p)) (s.modLink l (Link.assembling asm)) =
        .next (s.modLink l (Link.assembling next)) := by
      rw [(h.assembling asm).exec_data, State.modLink_assembling_timed,
        State.receiveData_more (by rw [State.modLink_link]; rfl) more, State.modLink_modLink,
        ← settled.assembling h.normal]
      rfl
    rw [List.map_cons, List.map_cons, runAll_cons step]
    exact ih rest

/-- The check symbol ends the frame, which is classified (R70, R71). -/
theorem State.Hears.exec_check (h : s.Hears l) {p : Payload} {seq seen : Seq} {items : List Record}
    (check : asm.collect p = .undamaged seq seen items) :
    exec (.symbolArrival l (symbolOf 0b10 p)) (s.modLink l (Link.assembling asm)) =
      .next ((s.modLink l Link.heard).classifyFrame l seq seen items).finish := by
  rw [(h.assembling asm).exec_data, State.modLink_assembling_timed,
    State.receiveData_undamaged (by rw [State.modLink_link]; rfl) check, State.modLink_modLink]
  rfl

/-- Every symbol of a frame arrived: its records were read, its check agrees, and it is classified (R67 to R71). -/
theorem State.Hears.runAll_symbols (h : s.Hears l) (settled : s.Settled) {f : Frame}
    (check : f.check = frameCheck f.seq f.seen f.items) (one : 1 ≤ f.items.length)
    (most : f.items.length ≤ (s.link l).config.frameClass.items) (legal : ∀ r ∈ f.items, r.HasLane) :
    runAll (f.symbols.map (Instr.symbolArrival l)) s = some (State.finish
      ((s.modLink l Link.heard).classifyFrame l f.seq f.seen (f.items.map Record.received))) := by
  have started := h.exec_frameStart_assembling settled f.seq f.seen one most
  have gathered := h.runAll_gathers settled (Assembly.gathers_records (asm := .start f.seq f.seen f.items.length) rfl
    (Nat.zero_add _).le legal)
  have ended : (Assembly.gathered (.start f.seq f.seen f.items.length) f.items).collect f.check =
      .undamaged f.seq f.seen (f.items.map Record.received) :=
    Assembly.collect_check rfl (List.length_map _).ge check
  rw [Frame.symbols, List.map_cons, runAll_cons started, List.map_append, runAll_append, gathered, Option.bind_some,
    List.map_singleton, runAll_cons (h.exec_check ended), runAll]

end

/-- Settles O50: the symbols bring a settled receiver to the classification of the frame, one lemma for each case. -/
theorem wholeFrameReceived : Obligations.WholeFrameReceived := by
  intro s l f hears finished capacity check one most lanes whole x occupancy
  have legal : ∀ r ∈ f.items, r.HasLane := fun r hr t o m d same => lanes t o m d (same ▸ hr)
  have classified : whole = _ := hears.runAll_symbols (State.settled_of_finish finished) check one most legal
  have link : (s.modLink l Link.heard).link l = (s.link l).heard := State.modLink_link _ _ _
  have room : ((s.modLink l Link.heard).link l).roomForFrame (f.items.map Record.received).length = true ↔
      occupancy ≤ 32 := by
    have within := capacity.apply
    rw [link, Link.roomForFrame_iff, List.length_map]
    simp only [Link.heard, Config.applyCapacity, occupancy] at *
    omega
  have ends {t u : State} (h : t = u) : some t.finish = some u.finish := by rw [h]
  refine ⟨fun expected fits => classified.trans (ends ?_), fun refused => classified.trans (ends ?_),
    fun other ahead => classified.trans (ends ?_)⟩
  · have nonempty : f.items.map Record.received ≠ [] := by
      intro none
      rw [List.map_eq_nil_iff.1 none] at one
      cases one
    rw [State.classifyFrame_expected (by rw [link]; exact expected),
      State.offerFrame_of_room (by rw [link]; exact hears.normal) nonempty (room.2 fits), State.modLink_modLink]
    refine State.modLink_congr ?_
    rw [List.length_map, List.map_map, expected]
    rfl
  · rcases refused with ⟨expected, full⟩ | duplicate
    · rw [State.classifyFrame_expected (by rw [link]; exact expected), State.offerFrame_of_noRoom]
      exact Bool.eq_false_iff.2 fun fits => absurd (room.1 fits) (Nat.not_le.2 full)
    · exact State.classifyFrame_duplicate (by rw [link]; exact duplicate)
  · rw [State.classifyFrame_gap (by rw [link]; exact other) (by rw [link]; exact ahead), State.modLink_modLink]
    exact State.modLink_congr (Link.heard_requestNak _)

end Sys2Proof.Machine
end

section
/-! SUPPORT. The apply block through the end of a drain point: the access that proceeds changes no apply queue, so a head
record that leaves takes one record from its own queue and nothing from the other (R86). -/

namespace Sys2Proof.Machine

namespace State

/-! ## Operations that keep every apply block -/

/-- A change of a link that keeps its apply block keeps that of every link. -/
theorem modLink_apply {s : State} {l : LinkId} {f : Link → Link} (h : (f (s.link l)).apply = (s.link l).apply)
    (l' : LinkId) : ((s.modLink l f).link l').apply = (s.link l').apply := by
  by_cases same : l' = l
  · rw [same, modLink_link, h]
  · rw [modLink_link_ne _ same]

section
variable (s : State) (l' : LinkId)

@[simp] theorem setNotice_apply (i : Index) : ((s.setNotice i).link l').apply = (s.link l').apply := by
  unfold setNotice
  split
  · split
    · exact (modLink_apply rfl _).trans (by rw [modWindow_link])
    · rfl
  · rfl

@[simp] theorem abortSweep_apply (l : LinkId) (c : Cause) : ((s.abortSweep l c).link l').apply = (s.link l').apply := by
  unfold abortSweep
  split
  · rfl
  · have stopped : ((s.modLink l Link.stopSweep).link l').apply = (s.link l').apply := modLink_apply rfl _
    dsimp only
    split_ifs <;> simp only [setNotice_apply, raise_link, modWindow_link] <;> exact stopped

@[simp] theorem localStale_apply (i : Index) (c : Cause) : ((s.localStale i c).link l').apply = (s.link l').apply := by
  unfold localStale
  split
  · rfl
  · split
    · dsimp only
      split <;> simp
    · simp
    · rfl
    · rfl

@[simp] theorem exportWrite_apply (i : Index) (w : Window) :
    ((s.exportWrite i w).link l').apply = (s.link l').apply := by
  unfold exportWrite
  split
  · simp
  · simp
  all_goals split <;> simp

@[simp] theorem proceedHost_apply : (s.proceedHost.link l').apply = (s.link l').apply := by
  unfold proceedHost
  split
  · split
    · split <;> simp
    all_goals simp
  · simp

@[simp] theorem endDrain_apply : (s.endDrain.link l').apply = (s.link l').apply := by
  unfold endDrain
  split <;> simp

end

/-! ## The removal of a head record -/

/-- No drain point left on a queue: the access in WAIT_DRAIN proceeds (R86). -/
theorem endDrain_of {s : State} (phase : s.host.phase = .waitDrain)
    (drained : ∀ l, ∀ x ∈ (s.link l).apply.queue, x.drainPoint = false) : s.endDrain = s.proceedHost := by
  have clear (l : LinkId) : ¬ (s.link l).apply.hasDrainPoint = true := by
    simpa [ApplyBlock.hasDrainPoint] using drained l
  rw [endDrain, if_pos ⟨phase, clear .a, clear .b⟩]

section
variable {s : State} {l : LinkId} {e : ApplyEntry} {rest : List ApplyEntry} (queue : (s.link l).apply.queue = e :: rest)
include queue

theorem popApply_queue : ((s.popApply l).link l).apply.queue = rest := by
  rw [popApply_eq s l e rest queue, endDrain_apply, modLink_link]

theorem popApply_queue_other : ((s.popApply l).link (otherLink l)).apply.queue = (s.link (otherLink l)).apply.queue := by
  rw [popApply_eq s l e rest queue, endDrain_apply, modLink_link_other]

end

end State

/-- Settles O30: the removal ends with the look at the drain point, which does nothing or lets the access proceed. -/
theorem headRecordLeaves : Obligations.HeadRecordLeaves := by
  intro s l e rest queue left
  have pops : s.popApply l = left.endDrain := s.popApply_eq l e rest queue
  have host : left.host = s.host := s.modLink_host l _
  refine ⟨fun stays => ?_, fun phase drained acc i o w access target window _ => ?_⟩
  · rw [pops, State.endDrain_not (by rwa [host])]
  · rw [pops, State.endDrain_of (by rw [host, phase]) drained]
    exact State.proceedHost_proceeded (by rw [host, access]) (by rw [host, target])
      ((s.modLink_window l _ i).trans window)

end Sys2Proof.Machine
end

section
/-! SUPPORT. The choice of a head WRITE record: what R81 decides for it, and the choice that follows. -/

namespace Sys2Proof.Machine

/-! ## The decision (R81) -/

theorem ConflictUnit.hasEntry_iff (c : ConflictUnit) (t : Tag) (o : Offset) :
    c.hasEntry t o = true ↔ ∃ e ∈ c.table, e.tag = t ∧ e.offset = o := by simp [ConflictUnit.hasEntry]

theorem Window.words_le_iff (w : Window) (n : Nat) : w.words ≤ n ↔ w.size ≤ 4 * n := by
  have size : w.size = 4 * (64 * 2 ^ w.k) := by rw [Window.size]; omega
  rw [Window.words]
  omega

namespace State

section
variable {s : State} {l : LinkId} {t : Tag} {o : Offset} {m : LaneMask} {d : Word}

theorem decideWrite_unknown (unknown : s.importOf l t = none) : s.decideWrite l t o m d = .discard (some .unknownTag) := by
  rw [decideWrite, unknown]

/-- The decision against the importing window of the tag (R81, cases 2 to 4). -/
theorem decideWrite_of {i : Index} {w : Window} (imports : s.importOf l t = some i) (window : s.window i = some w) :
    s.decideWrite l t o m d =
      if w.size ≤ 4 * o.toNat then .discard (some .offsetRange)
      else if w.direction = .shared ∧ (s.link l).control.rank = .senior ∧
          ∃ e ∈ (s.link l).conflict.table, e.tag = t ∧ e.offset = o then .discard none
      else .write i (w.addrOf o) m d := by
  simp only [decideWrite, imports, window, Window.words_le_iff, Window.isShared_iff, ConflictUnit.hasEntry_iff]

end

/-! ## The choice -/

theorem discardHead_some (s : State) (l : LinkId) (t : Tag) (c : Cause) :
    s.discardHead l t (some c) = (s.raise (.recordDiscarded l t c 1)).popApply l := rfl

theorem discardHead_none (s : State) (l : LinkId) (t : Tag) : s.discardHead l t none = s.popApply l := rfl

/-- The number of records in both apply queues, which bounds the discards of one choice. -/
def queuedRecords (s : State) : Nat := s.a.apply.queue.length + s.b.apply.queue.length

theorem arbiterChoice_eq (s : State) : s.arbiterChoice = s.arbitrate (s.queuedRecords + 1) := rfl

theorem queuedRecords_eq (s : State) (l : LinkId) :
    s.queuedRecords = (s.link l).apply.queue.length + (s.link (otherLink l)).apply.queue.length := by
  cases l
  · rfl
  · exact Nat.add_comm _ _

theorem popApply_queuedRecords {s : State} {l : LinkId} {e : ApplyEntry} {rest : List ApplyEntry}
    (queue : (s.link l).apply.queue = e :: rest) : (s.popApply l).queuedRecords + 1 = s.queuedRecords := by
  rw [queuedRecords_eq _ l, queuedRecords_eq s l, popApply_queue queue, popApply_queue_other queue, queue, List.length_cons]
  omega

/-- A discarded head leaves one record fewer, whatever event it raises. -/
theorem discardHead_queuedRecords {s : State} {l : LinkId} {e : ApplyEntry} {rest : List ApplyEntry}
    (queue : (s.link l).apply.queue = e :: rest) (t : Tag) (event : Option Cause) :
    (s.discardHead l t event).queuedRecords + 1 = s.queuedRecords := by
  cases event with
  | none => exact popApply_queuedRecords queue
  | some c =>
    rw [discardHead_some, popApply_queuedRecords (by rw [raise_link, queue]), queuedRecords_eq _ l, raise_link, raise_link,
      ← queuedRecords_eq]

@[simp] theorem roomTest_queuedRecords (s : State) : s.roomTest.queuedRecords = s.queuedRecords := by
  rw [queuedRecords_eq _ .a, roomTest_link, roomTest_link, ← queuedRecords_eq]

section
variable {s : State} {l : LinkId} {t : Tag} {o : Offset} {m : LaneMask} {d : Word} {seen : Option Seq} {drain : Bool}
  {rest : List ApplyEntry} (free : s.port = none) (choice : s.choose = some (.apply l))
  (queue : (s.link l).apply.queue = ⟨.write t o m d, seen, drain⟩ :: rest)
include free choice queue

/-- A discard is followed by a new choice, the record gone from the bound on discards (R149). -/
theorem arbiterChoice_discard {event : Option Cause} (decision : s.decideWrite l t o m d = .discard event) :
    s.arbiterChoice = (s.discardHead l t event).roomTest.arbiterChoice := by
  rw [arbiterChoice_eq, arbiterChoice_eq, roomTest_queuedRecords, discardHead_queuedRecords queue, arbitrate]
  simp [free, choice, queue, decision]

theorem arbiterChoice_write {i : Index} {addr : WordAddr} {m' : LaneMask} {d' : Word}
    (decision : s.decideWrite l t o m d = .write i addr m' d') : s.arbiterChoice = s.grantApply l i addr m' d' := by
  rw [arbiterChoice_eq, arbitrate]
  simp [free, choice, queue, decision]

end

end State

theorem exec_arbiterChoice (s : State) : exec .arbiterChoice s =
    s.happening (s.port.isNone && s.choose.isSome) State.arbiterChoice := rfl

theorem exec_arbiterChoice_of {s : State} {c : Choice} (hr : s.inReset = false) (free : s.port = none)
    (choice : s.choose = some c) : exec .arbiterChoice s = .next s.arbiterChoice.finish := by
  rw [exec_arbiterChoice, State.happening_of hr (by rw [free, choice]; rfl)]

/-- Settles O35: the branch of R81 that applies names the decision, and the decision names the choice. -/
theorem writeRecordDecided : Obligations.WriteRecordDecided := by
  intro s l t o m d seen drain rest hr free choice queue
  rw [exec_arbiterChoice_of hr free choice]
  have discards {event : Option Cause} {u : State} (decision : s.decideWrite l t o m d = .discard event)
      (leaves : s.discardHead l t event = u) : (.next s.arbiterChoice.finish : Host.Outcome State Fault Refusal) =
        .next u.roomTest.arbiterChoice.finish := by
    rw [State.arbiterChoice_discard free choice queue decision, leaves]
  refine ⟨fun unknown =>
      discards (State.decideWrite_unknown (State.importOf_none unknown)) (State.discardHead_some _ _ _ _),
    fun table i w window link imports tag => ?_⟩
  have decision := State.decideWrite_of (o := o) (m := m) (d := d) (State.importOf_of table window link imports tag) window
  refine ⟨fun beyond => ?_, fun within => ⟨fun pending => ?_, fun clear => ?_⟩⟩
  · exact discards (by rw [decision, if_pos beyond]) (State.discardHead_some _ _ _ _)
  · exact discards (by rw [decision, if_neg (Nat.not_le.2 within), if_pos pending]) (State.discardHead_none _ _ _)
  · rw [if_neg (Nat.not_le.2 within), if_neg clear] at decision
    rw [State.arbiterChoice_write free choice queue decision]
    rfl

end Sys2Proof.Machine
end

section
/-! SUPPORT. The completion of an apply write (R82), and the decision of a control record (R83, Table 5-1). -/

namespace Sys2Proof.Machine

/-! ## The completion of an apply write -/

namespace State

variable {s : State} {l : LinkId}

theorem completeApply_none (outstanding : (s.link l).apply.outstanding = .none) (status : MemStatus) :
    s.completeApply l status = s := by rw [completeApply, outstanding]

theorem completeApply_cleared (outstanding : (s.link l).apply.outstanding = .windowCleared) (status : MemStatus) :
    s.completeApply l status = s.popApply l := by rw [completeApply, outstanding]

theorem completeApply_ok {i : Index} (outstanding : (s.link l).apply.outstanding = .forWindow i) (d : Word) :
    s.completeApply l (.ok d) = s.popApply l := by rw [completeApply, outstanding]

theorem completeApply_fault {i : Index} (outstanding : (s.link l).apply.outstanding = .forWindow i) :
    s.completeApply l .fault = (s.popApply l).importStale i .applyFault := by rw [completeApply, outstanding]

end State

/-- The completion of an apply write: the port is free, the record's effect, the room test, the new choice (R147). -/
theorem exec_memoryCompletion_apply {s : State} {p : PortTransaction} {l : LinkId} (hr : s.inReset = false)
    (port : s.port = some p) (owner : p.owner = .apply l) (status : MemStatus) :
    exec (.memoryCompletion status) s =
      .next (({ s with port := none } : State).completeApply l status).roomTest.arbiterChoice.finish := by
  simp only [exec, execMemoryCompletion, port, hr, State.complete, State.completeOwner, owner, Bool.false_eq_true, if_false]

/-- Settles O37: one case for each mark of the outstanding record, and for a FAULT one for the import side it meets. -/
theorem applyWriteCompletes : Obligations.ApplyWriteCompletes := by
  intro s p l status hr port owner free left
  rw [exec_memoryCompletion_apply hr port owner]
  have completes {u : State} (h : free.completeApply l status = u) :
      (.next (free.completeApply l status).roomTest.arbiterChoice.finish : Host.Outcome State Fault Refusal) =
        .next u.roomTest.arbiterChoice.finish := by rw [h]
  have kept : (free.link l).apply = (s.link l).apply := by cases l <;> rfl
  rw [← kept]
  refine ⟨fun outstanding => completes (State.completeApply_none outstanding status),
    fun outstanding => completes (State.completeApply_cleared outstanding status),
    fun i outstanding => ⟨fun ended => completes ?_, fun faulted w window => ?_⟩⟩
  · cases status with
    | ok d => exact State.completeApply_ok outstanding d
    | fault => exact absurd rfl ended
  · subst faulted
    have faults : free.completeApply l .fault = left.importStale i .applyFault := State.completeApply_fault outstanding
    rw [State.importStale_of window] at faults
    refine ⟨fun stale => completes ?_, fun changes => completes ?_⟩
    · rw [faults, if_neg (by simp [stale])]
    · rw [faults, if_pos changes]

/-! ## The decision of a control record -/

/-- The state in which the import side of the valid window `w` at index `i` is `m`, after these events (Table 5-1). -/
def State.importBecomes (s : State) (i : Index) (w : Window) (m : ImportState) (es : List Event) : State :=
  { (s.offered es) with windows := s.windows.set i (some { w with importSide := some m }) }

theorem Window.withImport_of {w : Window} (imports : w.importSide.isSome = true) (m : ImportState) :
    w.withImport m = { w with importSide := some m } := by
  obtain ⟨side, hs⟩ := Option.isSome_iff_exists.1 imports
  simp [Window.withImport, hs]

namespace State

variable {s : State} {l : LinkId} {i : Index} {w : Window}

theorem applyControl_unknown {r : Record} (unknown : s.importOf l r.tag = none) : s.applyControl l r = s := by
  rw [applyControl, unknown]

section
variable (imports : s.importOf l w.tag = some i) (window : s.window i = some w)
include imports window

theorem applyControl_sweepOpen (side : w.importSide.isSome = true) :
    s.applyControl l (.sweepOpen w.tag) = s.importBecomes i w .filling [] := by
  simp only [applyControl, Record.tag, imports, modWindow_some window, Window.withImport_of side]
  rfl

theorem applyControl_sweepClose : s.applyControl l (.sweepClose w.tag) =
    if w.importSide = some .filling then s.importBecomes i w .inStep [.windowInStep i .importSide] else s := by
  simp only [applyControl, Record.tag, imports, window, Option.any_some, decide_eq_true_eq]
  split
  next filling =>
    rw [modWindow_some window, raise_withWindows, Window.withImport_of (by rw [filling]; rfl)]
    rfl
  next => rfl

theorem applyControl_stale : s.applyControl l (.stale w.tag) =
    if w.importSide = some .inStep ∨ w.importSide = some .filling then
      s.importBecomes i w .stale [.windowStale i .importSide .peerNotice]
    else s := by
  simp only [applyControl, Record.tag, imports]
  exact importStale_of window

end

end State

theorem Window.importSide_of_not_stale {w : Window} (imports : w.importSide.isSome = true)
    (other : w.importSide ≠ some .stale) : w.importSide = some .inStep ∨ w.importSide = some .filling := by
  obtain ⟨side, hs⟩ := Option.isSome_iff_exists.1 imports
  cases side <;> simp_all

theorem exec_controlRecordDecision (s : State) (l : LinkId) : exec (.controlRecordDecision l) s =
    s.happening (s.link l).controlHead.isSome (·.decideControl l) := rfl

theorem exec_controlRecordDecision_not {s : State} {l : LinkId}
    (writes : ∀ e ∈ (s.link l).apply.queue.head?, e.record.isWrite = true) :
    exec (.controlRecordDecision l) s = .next s := by
  have absent : (s.link l).controlHead = none := by
    rw [Link.controlHead]
    rcases head : (s.link l).apply.queue.head? with _ | e
    · rfl
    · simp [writes e head]
  rw [exec_controlRecordDecision, State.happening_not (by rw [absent]; rfl)]

theorem exec_controlRecordDecision_of {s : State} {l : LinkId} {e : ApplyEntry} {rest : List ApplyEntry}
    (hr : s.inReset = false) (queue : (s.link l).apply.queue = e :: rest) (control : e.record.isWrite = false) :
    exec (.controlRecordDecision l) s = .next ((s.applyControl l e.record).popApply l).finish := by
  have head : (s.link l).controlHead = some e.record := by simp [Link.controlHead, queue, control]
  rw [exec_controlRecordDecision, State.happening_of hr (by rw [head]; rfl), State.decideControl, head]

/-- Settles O39: what each kind of control record does to the import side, then the record's leaving. -/
theorem controlRecordActs : Obligations.ControlRecordActs := by
  refine ⟨fun s l empty => exec_controlRecordDecision_not (by simp [empty]), ?_⟩
  intro s l e rest hr queue table decided side
  have decides {r : Record} {u : State} (record : e.record = r) (control : r.isWrite = false)
      (acts : s.applyControl l r = u) : decided u := by
    rw [← record] at control acts
    rw [← acts]
    exact exec_controlRecordDecision_of hr queue control
  refine ⟨fun t kind unknown => ?_, fun i w window link imports => ?_, fun write => ?_⟩
  · have unmatched := State.importOf_none unknown
    rcases kind with record | record | record <;> exact decides record rfl (State.applyControl_unknown unmatched)
  · have found := State.importOf_of table window link imports rfl
    have close := State.applyControl_sweepClose found window
    have stale := State.applyControl_stale found window
    refine ⟨fun record => decides record rfl (State.applyControl_sweepOpen found window imports),
      fun record => ⟨fun filling => decides record rfl ?_, fun other => decides record rfl ?_⟩,
      fun record => ⟨fun other => decides record rfl ?_, fun same => decides record rfl ?_⟩⟩
    · rw [close, if_pos filling]
      rfl
    · rw [close, if_neg other]
    · rw [stale, if_pos (Window.importSide_of_not_stale imports other)]
      rfl
    · rw [stale, if_neg (by simp [same])]
  · exact exec_controlRecordDecision_not (by simp [queue, write])

end Sys2Proof.Machine
end

section
/-! SUPPORT. The conflict unit of one link (R91 to R103): its law through each change that the model makes of the link, and
which words the change leaves in the pending-write table. -/

namespace Sys2Proof.Machine

/-! ## Sequence values -/

/-- A value up to 31 ahead of another is not before it. -/
theorem before_eq_false_of_ahead {a h : Seq} (ahead : (a - h).toNat < 32) : before a h = false := by
  simp only [before, Bool.and_eq_false_iff, decide_eq_false_iff_not, BitVec.toNat_sub] at ahead ⊢
  omega

theorem distance_succ_le {next h : Seq} {n : Nat} (ahead : (next - h).toNat < n) : (next + 1 - h).toNat ≤ n := by
  have one : (1 : Seq).toNat = 1 := rfl
  simp only [BitVec.toNat_sub, BitVec.toNat_add, one] at ahead ⊢
  omega

/-- A value between a horizon and next-send, counted forward, is no further from next-send than the horizon is. -/
theorem distance_le_of_between {next h v : Seq} (between : (v - h).toNat ≤ (next - h).toNat) :
    (next - v).toNat ≤ (next - h).toNat := by
  simp only [BitVec.toNat_sub] at between ⊢
  omega

/-! ## Pending-write entries -/

/-- The word that an entry is for (R92). -/
def PendingWrite.word (e : PendingWrite) : Tag × Offset := (e.tag, e.offset)

theorem PendingWrite.retiredAt_of_unnumbered {e : PendingWrite} (h : e.frame = none) (horizon : Seq) :
    e.retiredAt horizon = false := by simp [PendingWrite.retiredAt, h]

theorem ConflictUnit.capture_horizon (c : ConflictUnit) (t : Tag) (o : Offset) : (c.capture t o).horizon = c.horizon := by
  unfold ConflictUnit.capture
  split <;> rfl

/-- Every entry of a table after a capture was there, lost its frame number, or is the word's own (R93). -/
theorem ConflictUnit.mem_capture {c : ConflictUnit} {t : Tag} {o : Offset} {e : PendingWrite}
    (h : e ∈ (c.capture t o).table) : e ∈ c.table ∨ (e.frame = none ∧ e.word = (t, o)) := by
  unfold ConflictUnit.capture at h
  split at h
  · obtain ⟨e₀, he₀, rfl⟩ := List.mem_map.1 h
    split
    next word =>
      simp only [PendingWrite.isFor, Bool.and_eq_true, decide_eq_true_eq] at word
      exact .inr ⟨rfl, by simp [PendingWrite.word, word]⟩
    next => exact .inl he₀
  · rcases List.mem_append.1 h with h | h
    · exact .inl h
    · rw [List.mem_singleton.1 h]
      exact .inr ⟨rfl, rfl⟩

/-- A capture makes no second entry for a word (R93). -/
theorem ConflictUnit.capture_distinct {c : ConflictUnit} (h : (c.table.map PendingWrite.word).Nodup) (t : Tag)
    (o : Offset) : ((c.capture t o).table.map PendingWrite.word).Nodup := by
  unfold ConflictUnit.capture
  split
  · have words : (fun e => PendingWrite.word (if e.isFor t o then { e with frame := none } else e)) = PendingWrite.word := by
      funext e
      split <;> rfl
    simpa [Function.comp_def, words] using h
  next absent =>
    rw [ConflictUnit.hasEntry_iff] at absent
    simp only [List.map_append, List.map_cons, List.map_nil, List.nodup_append, List.nodup_singleton, true_and]
    refine ⟨h, ?_⟩
    rintro word hw _ new rfl
    obtain ⟨e, he, rfl⟩ := List.mem_map.1 hw
    obtain ⟨tag, offset⟩ := Prod.mk.inj (List.mem_singleton.1 new)
    exact absent ⟨e, he, tag, offset⟩

/-- Every entry of a table after a build was there, but for its frame number (R94). -/
theorem ConflictUnit.mem_build {c : ConflictUnit} {seq : Seq} {items : List Record} {queue : List CaptureEntry}
    {e : PendingWrite} (h : e ∈ (c.build seq items queue).table) :
    ∃ e₀ ∈ c.table, e.word = e₀.word ∧ (e = e₀ ∨ e.frame = some seq) := by
  obtain ⟨e₀, he₀, rfl⟩ := List.mem_map.1 h
  refine ⟨e₀, he₀, ?_⟩
  split
  · exact ⟨rfl, .inr rfl⟩
  · exact ⟨rfl, .inl rfl⟩

theorem ConflictUnit.build_words (c : ConflictUnit) (seq : Seq) (items : List Record) (queue : List CaptureEntry) :
    (c.build seq items queue).table.map PendingWrite.word = c.table.map PendingWrite.word := by
  rw [ConflictUnit.build, List.map_map]
  refine List.map_congr_left fun e _ => ?_
  simp only [Function.comp]
  split <;> rfl

/-- Every entry of a table after a placeholder was removed unfilled was there, but for a frame number that is not before the
horizon (R95). -/
theorem ConflictUnit.mem_unfilled {c : ConflictUnit} {t : Tag} {o : Offset} {recent : Seq} {queue : List CaptureEntry}
    {e : PendingWrite} (h : e ∈ (c.unfilled t o recent queue).table) :
    ∃ e₀ ∈ c.table, e.word = e₀.word ∧ (e = e₀ ∨ (e.frame = some recent ∧ before recent c.horizon = false)) := by
  unfold ConflictUnit.unfilled at h
  split at h
  · exact ⟨e, h, rfl, .inl rfl⟩
  · obtain ⟨e₀, he₀, kept⟩ := List.mem_filterMap.1 h
    refine ⟨e₀, he₀, ?_⟩
    split_ifs at kept with word late <;> obtain rfl := Option.some.inj kept
    · exact ⟨rfl, .inr ⟨rfl, Bool.eq_false_iff.2 late⟩⟩
    · exact ⟨rfl, .inl rfl⟩

theorem ConflictUnit.unfilled_horizon (c : ConflictUnit) (t : Tag) (o : Offset) (recent : Seq)
    (queue : List CaptureEntry) : (c.unfilled t o recent queue).horizon = c.horizon := by
  unfold ConflictUnit.unfilled
  split <;> rfl

/-- A table whose entries each come from another's entry for the same word, one from one, names no word twice (R92). -/
theorem distinct_filterMap {table : List PendingWrite} {f : PendingWrite → Option PendingWrite}
    (h : (table.map PendingWrite.word).Nodup) (same : ∀ e, ∀ e' ∈ f e, e'.word = e.word) :
    ((table.filterMap f).map PendingWrite.word).Nodup := by
  rw [List.Nodup, List.pairwise_map] at h ⊢
  rw [List.pairwise_filterMap]
  exact h.imp fun apart e he e' he' => by
    rw [same _ e he, same _ e' he']
    exact apart

theorem ConflictUnit.unfilled_distinct {c : ConflictUnit} (h : (c.table.map PendingWrite.word).Nodup) (t : Tag)
    (o : Offset) (recent : Seq) (queue : List CaptureEntry) :
    ((c.unfilled t o recent queue).table.map PendingWrite.word).Nodup := by
  unfold ConflictUnit.unfilled
  split
  · exact h
  · refine distinct_filterMap h fun e e' he' => ?_
    rw [Option.mem_def] at he'
    split_ifs at he' <;> obtain rfl := Option.some.inj he' <;> rfl

/-! ## The law through a change of the conflict unit -/

namespace Link.ConflictLaw

variable {k : Link} (hk : k.ConflictLaw)
include hk

/-- A link that is neither UP nor DRAINING has no rank, so its entries have no frame numbers (R91, R103). -/
theorem unranked (h : k.control.state.carrying = false) : k.control.rank = .unknown := by
  by_contra ranked
  rw [hk.ranked.2 ranked] at h
  cases h

/-- Entries leave the table. -/
theorem shrink {table : List PendingWrite} (h : table.Sublist k.conflict.table) :
    Link.ConflictLaw { k with conflict := { k.conflict with table } } :=
  { hk with
    juniorEmpty := fun low => List.eq_nil_of_sublist_nil (hk.juniorEmpty low ▸ h)
    distinct := hk.distinct.sublist (h.map _)
    notBefore := fun e he => hk.notBefore e (h.subset he)
    unnumbered := fun unknown e he => hk.unnumbered unknown e (h.subset he) }

/-- The horizon takes a value between it and next-send, and the entries before that retire (R97, R100). -/
theorem horizonAfter (v : Seq) : Link.ConflictLaw { k with conflict := k.horizonAfter v } := by
  unfold Link.horizonAfter
  split
  next taken =>
    obtain ⟨-, -, between⟩ := taken
    exact { hk.shrink List.filter_sublist with
      notBefore := fun e he => by simpa [PendingWrite.retiredAt] using (List.mem_filter.1 he).2
      distance := fun senior => (distance_le_of_between between).trans (hk.distance senior) }
  next => exact hk

/-- A captured word has an entry without a frame number, at UNKNOWN and SENIOR rank alone (R93). -/
theorem noted (w : Window) (o : Offset) : (k.noted w o).ConflictLaw := by
  unfold Link.noted
  split
  next h =>
    obtain ⟨-, rank⟩ := h
    exact { hk with
      juniorEmpty := fun low => by rcases rank with h | h <;> rcases low with low | low <;> cases h.symm.trans low
      distinct := ConflictUnit.capture_distinct hk.distinct _ _
      notBefore := fun e he => by
        rcases ConflictUnit.mem_capture he with old | ⟨none, -⟩
        · rw [ConflictUnit.capture_horizon]
          exact hk.notBefore e old
        · exact PendingWrite.retiredAt_of_unnumbered none _
      unnumbered := fun unknown e he => by
        rcases ConflictUnit.mem_capture he with old | ⟨none, -⟩
        · exact hk.unnumbered unknown e old
        · exact none
      distance := fun senior => by
        rw [ConflictUnit.capture_horizon]
        exact hk.distance senior }
  next => exact hk

/-- A frame is built on a link that carries frames and whose builder is not stalled: its number is not before the horizon,
and next-send stays within the stall distance (R94, R102). -/
theorem build (carrying : k.control.state.carrying = true) (free : k.stalled = false) (capture : CaptureBlock)
    (frames : List Frame) (items : List Record) (left : List CaptureEntry) : Link.ConflictLaw { k with
      capture
      tx := { k.tx with retransmit := frames, nextSend := k.tx.nextSend + 1 }
      conflict := k.conflict.build k.tx.nextSend items left } := by
  have ranked := hk.ranked.1 carrying
  have room := k.stalled_iff.1 free
  have senior : ∀ e ∈ k.conflict.table, k.control.rank = .senior := fun e he => by
    have empty := hk.juniorEmpty
    cases hr : k.control.rank with
    | senior => rfl
    | unknown => exact absurd hr ranked
    | junior => simp [empty (.inl hr)] at he
    | self => simp [empty (.inr hr)] at he
  exact {
    juniorEmpty := fun low => by simp [ConflictUnit.build, hk.juniorEmpty low]
    distinct := by
      have words := ConflictUnit.build_words k.conflict k.tx.nextSend items left
      exact (congrArg List.Nodup words).mpr hk.distinct
    notBefore := fun e he => by
      obtain ⟨e₀, he₀, -, rfl | numbered⟩ := ConflictUnit.mem_build he
      · exact hk.notBefore e he₀
      · have ahead : (k.tx.nextSend - k.conflict.horizon).toNat < 32 := (room (senior e₀ he₀)).trans (by decide)
        rw [PendingWrite.retiredAt, numbered]
        exact before_eq_false_of_ahead ahead
    unnumbered := fun unknown => absurd unknown ranked
    ranked := hk.ranked
    distance := fun senior => distance_succ_le (room senior) }

/-- The entry of a placeholder removed unfilled takes the most recent frame's number, or goes (R95). -/
theorem unfilled (senior : k.control.rank = .senior) (t : Tag) (o : Offset) (queue : List CaptureEntry) :
    Link.ConflictLaw { k with conflict := k.conflict.unfilled t o (k.tx.nextSend - 1) queue } :=
  { hk with
    juniorEmpty := fun low => by rcases low with low | low <;> cases senior.symm.trans low
    distinct := ConflictUnit.unfilled_distinct hk.distinct _ _ _ _
    notBefore := fun e he => by
      rw [ConflictUnit.unfilled_horizon]
      obtain ⟨e₀, he₀, -, rfl | ⟨numbered, late⟩⟩ := ConflictUnit.mem_unfilled he
      · exact hk.notBefore e he₀
      · rw [PendingWrite.retiredAt, numbered]
        exact late
    unnumbered := fun unknown => by cases senior.symm.trans unknown
    distance := fun senior => by
      rw [ConflictUnit.unfilled_horizon]
      exact hk.distance senior }

/-- Entry to UP of a link that is neither UP nor DRAINING: the horizon and next-send begin at 0, and no entry has a frame
number (R91, R103). -/
theorem startUp (idle : k.control.state.carrying = false) {rank : Rank} (hr : rank ≠ .unknown) (cls : FrameClass) :
    (k.startUp rank cls).ConflictLaw := by
  have unnumbered := hk.unnumbered (hk.unranked idle)
  have old : ∀ e ∈ (k.startUp rank cls).conflict.table, e ∈ k.conflict.table := fun e he => by
    simp only [Link.startUp] at he
    split at he
    · cases he
    · exact he
  exact {
    juniorEmpty := fun low => if_pos low
    distinct := by
      simp only [Link.startUp]
      split
      · exact .nil
      · exact hk.distinct
    notBefore := fun e he => PendingWrite.retiredAt_of_unnumbered (unnumbered e (old e he)) _
    unnumbered := fun unknown => absurd unknown hr
    ranked := iff_of_true rfl hr
    distance := fun _ => show ((0 : Seq) - 0).toNat ≤ Config.stallDistance by decide }

end Link.ConflictLaw

/-- A link with no rank that is neither UP nor DRAINING, its table empty (R105). -/
theorem Link.conflictLaw_of_empty {k : Link} (table : k.conflict.table = []) (rank : k.control.rank = .unknown)
    (idle : k.control.state.carrying = false) : k.ConflictLaw where
  juniorEmpty _ := table
  distinct := by simp [table]
  notBefore := by simp [table]
  unnumbered := by simp [table]
  ranked := by simp [rank, idle]
  distance senior := by cases rank.symm.trans senior

end Sys2Proof.Machine
end

section
/-! SUPPORT. What an operation can do to one link, as far as the laws of the conflict unit and of word offsets go: one lemma
for each change of a link that the model makes. -/

namespace Sys2Proof.Machine

/-- From `k` to `k'` the law of the conflict unit is kept, no word enters the pending-write table, and the sweep engine stays
as it is or stops. -/
structure Link.Conserves (k k' : Link) : Prop where
  law : k.ConflictLaw → k'.ConflictLaw
  words : ∀ e' ∈ k'.conflict.table, ∃ e ∈ k.conflict.table, e'.word = e.word
  sweep : ∀ sw ∈ k'.sweep.active, sw ∈ k.sweep.active

/-- What the law of the conflict unit and the law of word offsets speak of, and nothing else of a link. -/
def Link.footing (k : Link) : Bool × Rank × ConflictUnit × Seq × Option ActiveSweep :=
  (k.control.state.carrying, k.control.rank, k.conflict, k.tx.nextSend, k.sweep.active)

theorem Link.Conserves.of_footing {k k' : Link} (h : k'.footing = k.footing) : k.Conserves k' := by
  simp only [Link.footing, Prod.mk.injEq] at h
  obtain ⟨carrying, rank, conflict, next, active⟩ := h
  exact {
    law := fun hk => {
      juniorEmpty := by rw [rank, conflict]; exact hk.juniorEmpty
      distinct := by rw [conflict]; exact hk.distinct
      notBefore := by rw [conflict]; exact hk.notBefore
      unnumbered := by rw [rank, conflict]; exact hk.unnumbered
      ranked := by rw [carrying, rank]; exact hk.ranked
      distance := by rw [rank, conflict, next]; exact hk.distance }
    words := by rw [conflict]; exact fun e he => ⟨e, he, rfl⟩
    sweep := by rw [active]; exact fun sw hsw => hsw }

theorem Link.conserves_refl (k : Link) : k.Conserves k := .of_footing rfl

theorem Link.Conserves.trans {k k' k'' : Link} (h : k.Conserves k') (h' : k'.Conserves k'') : k.Conserves k'' where
  law hk := h'.law (h.law hk)
  words e'' he'' := by
    obtain ⟨e', he', word'⟩ := h'.words e'' he''
    obtain ⟨e, he, word⟩ := h.words e' he'
    exact ⟨e, he, word'.trans word⟩
  sweep sw hsw := h.sweep sw (h'.sweep sw hsw)

namespace Link

variable (k : Link)

/-! ## Capture block and conflict unit -/

theorem conserves_captureWrite (w : Window) (o : Offset) (m : LaneMask) (d : Word) :
    k.Conserves (if k.mergesInto w o then
        { k with capture := { k.capture with queue := mergeNewest w.tag o m d k.capture.queue } }
      else k.enqueue (.record (.write w.tag o m d))) := by
  split <;> exact .of_footing rfl

theorem conserves_dropPlaceholder : k.Conserves k.dropPlaceholder := by
  unfold dropPlaceholder
  split
  · exact k.conserves_refl
  next t o _ =>
    have settled (q : List CaptureEntry) : k.Conserves { k with
        conflict :=
          if k.control.rank = .senior then k.conflict.unfilled t o (k.tx.nextSend - 1) q else k.conflict } := by
      split
      next senior =>
        exact {
          law := fun hk => hk.unfilled senior t o q
          words := fun e he => by
            obtain ⟨e₀, he₀, word, -⟩ := ConflictUnit.mem_unfilled he
            exact ⟨e₀, he₀, word⟩
          sweep := fun _ hsw => hsw }
      next => exact k.conserves_refl
    exact (settled _).trans (.of_footing rfl)

/-- A frame is built where the conditions of R30 hold (R33, R94). -/
theorem conserves_build {k : Link} (carrying : k.control.state.carrying = true) (free : k.stalled = false)
    (capture : CaptureBlock) (frames : List Frame) (items : List Record) (left : List CaptureEntry) :
    k.Conserves { k with
      capture
      tx := { k.tx with retransmit := frames, nextSend := k.tx.nextSend + 1 }
      conflict := k.conflict.build k.tx.nextSend items left } where
  law hk := hk.build carrying free _ _ _ _
  words e he := by
    obtain ⟨e₀, he₀, word, -⟩ := ConflictUnit.mem_build he
    exact ⟨e₀, he₀, word⟩
  sweep _ hsw := hsw

theorem conserves_horizonAfter (v : Seq) : k.Conserves { k with conflict := k.horizonAfter v } where
  law hk := hk.horizonAfter v
  words e he := by
    unfold horizonAfter at he
    split at he
    · exact ⟨e, (List.mem_filter.1 he).1, rfl⟩
    · exact ⟨e, he, rfl⟩
  sweep _ hsw := hsw

/-! ## Apply queue -/

theorem conserves_purged (t : Tag) : k.Conserves (k.purged t) := by
  have offered : k.Conserves { k with conflict := (k.purged t).conflict } := by
    unfold purged
    dsimp only
    split
    · split
      · exact k.conserves_horizonAfter _
      · exact k.conserves_refl
    · exact k.conserves_refl
  exact offered.trans (.of_footing rfl)

/-! ## Transmitter -/

theorem conserves_acknowledge (a : Seq) : k.Conserves (k.acknowledge a) := by
  unfold acknowledge
  dsimp only
  split <;> exact .of_footing rfl

theorem conserves_startFrame : k.Conserves k.startFrame := by
  unfold startFrame
  split <;> exact .of_footing rfl

theorem conserves_chooseSymbol : k.Conserves k.chooseSymbol := by
  unfold chooseSymbol
  split
  · exact .of_footing rfl
  · split
    · exact k.conserves_startFrame
    · exact .of_footing rfl

theorem conserves_choicePoint (nodeId : Byte) : k.Conserves (k.choicePoint nodeId) := by
  unfold choicePoint
  split
  · exact k.conserves_chooseSymbol
  · exact k.conserves_chooseSymbol
  all_goals exact .of_footing rfl

theorem conserves_loopStart : k.Conserves k.loopStart := by
  unfold loopStart
  split
  · exact k.conserves_startFrame
  · exact k.conserves_refl

/-! ## Receiver -/

theorem conserves_requestNak : k.Conserves k.requestNak := by
  unfold requestNak
  split <;> exact .of_footing rfl

theorem conserves_damage : k.Conserves k.damage := by
  unfold damage requestNak
  split <;> exact .of_footing rfl

theorem conserves_damageAssembly : k.Conserves k.damageAssembly := by
  unfold damageAssembly
  split
  · exact k.conserves_damage
  · exact k.conserves_refl

theorem conserves_beginFrame (seq seen : Seq) (count : Nat) (p : Payload) :
    k.Conserves (k.beginFrame seq seen count p) := by
  unfold beginFrame
  split
  · exact k.conserves_damage
  · exact .of_footing rfl

/-- A HUNTING link that enters TRAINING carries no frames before or after (R123). -/
theorem conserves_align : k.Conserves k.align := by
  refine .of_footing ?_
  have carrying : k.align.control.state.carrying = k.control.state.carrying := by
    unfold align
    dsimp only
    split
    next hunting => rw [hunting]; rfl
    next => rfl
  rw [footing, carrying]
  rfl

/-! ## Link control -/

/-- A state that carries frames exactly where the old one did. -/
theorem conserves_state {k : Link} {x : LinkState} (h : x.carrying = k.control.state.carrying) :
    k.Conserves { k with control := { k.control with state := x } } := by
  refine .of_footing ?_
  rw [footing, h]
  rfl

theorem conserves_goDown (r : Option FaultReason) : k.Conserves (k.goDown r) := by
  rw [goDown_eq]
  exact {
    law := fun _ => conflictLaw_of_empty rfl rfl (by cases r <;> rfl)
    words := nofun
    sweep := fun _ hsw => hsw }

theorem conserves_reset (cfg : LinkConfig) : k.Conserves (Link.reset cfg) where
  law _ := conflictLaw_of_empty rfl rfl rfl
  words := nofun
  sweep := nofun

/-- The sweep engine becomes IDLE (R106, R113). -/
theorem conserves_idleSweep (r : ReadOutstanding) : k.Conserves { k with sweep := { active := none, read := r } } where
  law hk := { hk with }
  words e he := ⟨e, he, rfl⟩
  sweep := nofun

/-- Entry to UP from a state that carries no frames (R91, R103). -/
theorem conserves_startUp {k : Link} (idle : k.control.state.carrying = false) {rank : Rank} (hr : rank ≠ .unknown)
    (cls : FrameClass) : k.Conserves (k.startUp rank cls) where
  law hk := hk.startUp idle hr cls
  words e he := by
    simp only [startUp] at he
    split at he
    · cases he
    · exact ⟨e, he, rfl⟩
  sweep _ hsw := hsw

end Link
end Sys2Proof.Machine
end

section
/-! SUPPORT. The conflict law and the law of word offsets as one law of a state (`State.Coherent`), and the changes of entries,
links and the host port that keep it. -/

namespace Sys2Proof.Machine

/-! ## Words of windows -/

/-- What the words of a window depend on. -/
def Window.wordKey (w : Window) : Nat × LinkId × Direction × Tag := (w.k, w.link, w.direction, w.tag)

theorem Window.lt_words_iff (w : Window) (n : Nat) : n < w.words ↔ 4 * n < w.size := by
  rw [← not_le, Window.words_le_iff, not_le]

theorem Window.words_pos (w : Window) : 0 < w.words := (w.lt_words_iff 0).2 w.size_pos

/-- The offset of a word that a window holds is one of its words (R2, R10). -/
theorem Window.offsetOf_lt {w : Window} {addr : WordAddr} (h : w.holds addr = true) :
    (w.offsetOf addr).toNat < w.words := by
  simp only [Window.holds, Bool.and_eq_true, decide_eq_true_eq] at h
  have word : (4 * addr.toNat - w.base) / 4 < w.words := (w.lt_words_iff _).2 (by omega)
  rw [Window.offsetOf, BitVec.toNat_ofNat]
  exact (Nat.mod_le _ _).trans_lt word

/-- The offset of the next word does not wrap while it names a word (R111). -/
theorem Offset.toNat_succ_lt {o : Offset} {n : Nat} (h : o.toNat + 1 < n) : (o + 1).toNat < n := by
  rw [BitVec.toNat_add]
  exact (Nat.mod_le _ _).trans_lt h

/-- A word of a valid SHARED window of a link, by its tag and offset (R92). -/
def State.SharesWord (s : State) (l : LinkId) (word : Tag × Offset) : Prop :=
  ∃ i, ∃ w ∈ s.window i, w.link = l ∧ w.isShared = true ∧ w.tag = word.1 ∧ word.2.toNat < w.words

/-- An active sweep stands at a word of a valid window of its link (Table 7-1). -/
def State.SweepsWord (s : State) (l : LinkId) (sw : ActiveSweep) : Prop :=
  ∃ w ∈ s.window sw.window, w.link = l ∧ sw.next.toNat < w.words

/-- Every valid entry of `s` is valid in `t`, with the words it had. -/
def State.KeepsWords (s t : State) : Prop := ∀ i, ∀ v ∈ s.window i, ∃ w ∈ t.window i, w.wordKey = v.wordKey

theorem State.keepsWords_of_windows {s t : State} (h : t.windows = s.windows) : s.KeepsWords t :=
  fun i v hv => ⟨v, by rwa [State.window, h], rfl⟩

namespace State.KeepsWords

variable {s t : State} (h : s.KeepsWords t)
include h

theorem isWordOf {i : Index} {o : Offset} (ho : s.IsWordOf i o) : t.IsWordOf i o := by
  obtain ⟨v, hv, lt⟩ := ho
  obtain ⟨w, hw, key⟩ := h i v hv
  simp only [Window.wordKey, Prod.mk.injEq] at key
  exact ⟨w, hw, by rwa [Window.words, Window.size, key.1]⟩

theorem sweepsWord {l : LinkId} {sw : ActiveSweep} (hsw : s.SweepsWord l sw) : t.SweepsWord l sw := by
  obtain ⟨v, hv, link, lt⟩ := hsw
  obtain ⟨w, hw, key⟩ := h _ v hv
  simp only [Window.wordKey, Prod.mk.injEq] at key
  obtain ⟨k, sameLink, -, -⟩ := key
  exact ⟨w, hw, sameLink.trans link, by rwa [Window.words, Window.size, k]⟩

theorem sharesWord {l : LinkId} {word : Tag × Offset} (hword : s.SharesWord l word) : t.SharesWord l word := by
  obtain ⟨i, v, hv, link, shared, tag, lt⟩ := hword
  obtain ⟨w, hw, key⟩ := h _ v hv
  simp only [Window.wordKey, Prod.mk.injEq] at key
  obtain ⟨k, sameLink, direction, sameTag⟩ := key
  exact ⟨i, w, hw, sameLink.trans link, by rwa [Window.isShared, direction], sameTag.trans tag,
    by rwa [Window.words, Window.size, k]⟩

end State.KeepsWords

/-! ## The law -/

/-- The laws of the conflict units and of word offsets, with the link of the window that each engine sweeps (R91, R92, R100,
R102, R103, R113). -/
structure State.Coherent (s : State) : Prop where
  conflict : ∀ l, (s.link l).ConflictLaw
  host : ∀ i o, s.host.classification = some (.window i o) → s.IsWordOf i o
  sweep : ∀ l, ∀ sw ∈ (s.link l).sweep.active, s.SweepsWord l sw
  pending : ∀ l, ∀ e ∈ (s.link l).conflict.table, s.SharesWord l e.word

theorem State.coherent_of_laws {s : State} (sweep : s.SweepLaw) (conflict : s.ConflictLaw) (word : s.WordLaw) :
    s.Coherent where
  conflict
    | .a => conflict.a
    | .b => conflict.b
  host := word.host
  sweep l sw hsw := by
    obtain ⟨w, hw, lt⟩ := word.sweep l sw hsw
    have sweeps : s.Sweeps l sw.window := by rw [State.Sweeps, hsw, Option.map_some]
    exact ⟨w, hw, sweep.link_of_sweeps sweeps hw, lt⟩
  pending := word.pending

namespace State.Coherent

variable {s t : State} (hs : s.Coherent)
include hs

theorem conflictLaw : s.ConflictLaw := ⟨hs.conflict .a, hs.conflict .b⟩

theorem wordLaw : s.WordLaw where
  host := hs.host
  sweep l sw hsw := by
    obtain ⟨w, hw, -, lt⟩ := hs.sweep l sw hsw
    exact ⟨w, hw, lt⟩
  pending := hs.pending

/-- The window and the word of the access in progress (R10). -/
theorem target_lt {i : Index} {w : Window} {o : Offset} (h : s.hostTarget = some (i, w, o)) :
    s.window i = some w ∧ o.toNat < w.words := by
  unfold State.hostTarget at h
  split at h
  next j o' hc =>
    obtain ⟨v, hv, target⟩ := Option.map_eq_some_iff.1 h
    cases target
    obtain ⟨v', hv', lt⟩ := hs.host _ _ hc
    obtain rfl := Option.some.inj (hv.symm.trans hv')
    exact ⟨hv, lt⟩
  next => cases h

/-- The window and the word of a sweep claim (R109). -/
theorem claim_lt {l : LinkId} {i : Index} {w : Window} {o : Offset} (h : s.sweepClaim l = some (i, w, o)) :
    s.window i = some w ∧ w.link = l ∧ o.toNat < w.words := by
  obtain ⟨active, hw, -, -⟩ := (s.sweepClaim_iff l i w o).1 h
  obtain ⟨v, hv, link, lt⟩ := hs.sweep l _ active
  obtain rfl := Option.some.inj (hw.symm.trans hv)
  exact ⟨hw, link, lt⟩

/-! ## Changes that keep the law -/

/-- Entries keep their words, links stay, and the access in progress keeps its window or is classified against none. -/
theorem ofEntries (entries : s.KeepsWords t) (links : ∀ l, t.link l = s.link l)
    (host : ∀ i o, t.host.classification = some (.window i o) → s.host.classification = some (.window i o)) :
    t.Coherent where
  conflict l := by rw [links]; exact hs.conflict l
  host i o hc := entries.isWordOf (hs.host i o (host i o hc))
  sweep l sw hsw := by rw [links] at hsw; exact entries.sweepsWord (hs.sweep l sw hsw)
  pending l e he := by rw [links] at he; exact entries.sharesWord (hs.pending l e he)

/-- The law speaks of the window table, the links and the classification of the access in progress. -/
theorem congr (windows : t.windows = s.windows) (a : t.a = s.a) (b : t.b = s.b)
    (host : ∀ i o, t.host.classification = some (.window i o) → s.host.classification = some (.window i o)) :
    t.Coherent :=
  hs.ofEntries (State.keepsWords_of_windows windows) (fun | .a => a | .b => b) host

/-- A part of the machine that the law does not speak of changes. -/
theorem outside (windows : t.windows = s.windows) (a : t.a = s.a) (b : t.b = s.b) (host : t.host = s.host) :
    t.Coherent :=
  hs.congr windows a b fun i o hc => by rwa [host] at hc

/-- A link changes: what it then sweeps and what its table then names are words of windows on it. -/
theorem changeLink {l : LinkId} {f : Link → Link} (law : (f (s.link l)).ConflictLaw)
    (sweep : ∀ sw ∈ (f (s.link l)).sweep.active, s.SweepsWord l sw)
    (pending : ∀ e ∈ (f (s.link l)).conflict.table, s.SharesWord l e.word) : (s.modLink l f).Coherent := by
  have entries : s.KeepsWords (s.modLink l f) := State.keepsWords_of_windows (State.modLink_windows s l f)
  have links := State.modLink_forall (s := s) (l := l) (f := f)
    (P := fun l' k => k.ConflictLaw ∧ (∀ sw ∈ k.sweep.active, s.SweepsWord l' sw) ∧
      ∀ e ∈ k.conflict.table, s.SharesWord l' e.word)
    ⟨law, sweep, pending⟩ fun l' _ => ⟨hs.conflict l', hs.sweep l', hs.pending l'⟩
  exact {
    conflict := fun l' => (links l').1
    host := fun i o hc => entries.isWordOf (hs.host i o (by rwa [State.modLink_host] at hc))
    sweep := fun l' sw hsw => entries.sweepsWord ((links l').2.1 sw hsw)
    pending := fun l' e he => entries.sharesWord ((links l').2.2 e he) }

theorem modLink {l : LinkId} {f : Link → Link} (h : (s.link l).Conserves (f (s.link l))) : (s.modLink l f).Coherent :=
  hs.changeLink (h.law (hs.conflict l)) (fun sw hsw => hs.sweep l sw (h.sweep sw hsw)) fun e' he' => by
    obtain ⟨e, he, word⟩ := h.words e' he'
    rw [word]
    exact hs.pending l e he

/-- A change of a link that the law does not speak of. -/
theorem quiet {l : LinkId} {f : Link → Link} (h : (f (s.link l)).footing = (s.link l).footing) :
    (s.modLink l f).Coherent := hs.modLink (.of_footing h)

/-- A captured word of a SHARED window is one of the words of its link's windows (R92, R93). -/
theorem noteCapture {i : Index} {w : Window} {o : Offset} (hw : s.window i = some w) (lt : o.toNat < w.words) :
    (s.noteCapture w.link w o).Coherent := by
  have active : ((s.link w.link).noted w o).sweep = (s.link w.link).sweep := by rw [Link.noted_eq]
  refine hs.changeLink (f := Link.noted w o) ((hs.conflict _).noted w o) (by rw [active]; exact hs.sweep _) fun e he => ?_
  unfold Link.noted at he
  split at he
  next h =>
    rcases ConflictUnit.mem_capture he with old | ⟨-, word⟩
    · exact hs.pending _ e old
    · rw [word]
      exact ⟨i, w, hw, rfl, h.1, rfl, lt⟩
  next => exact hs.pending _ e he

theorem raise (e : Event) : (s.raise e).Coherent := by
  rw [State.raise_eq]
  exact hs.outside rfl rfl rfl rfl

theorem modWindow {i : Index} {f : Window → Window} (h : ∀ w, (f w).wordKey = w.wordKey) :
    (s.modWindow i f).Coherent := by
  refine hs.ofEntries (fun j v hv => ?_) (fun l => State.modWindow_link _ _ _ _) fun _ _ hc => hc
  by_cases hj : j = i
  · subst hj
    exact ⟨f v, by rw [State.modWindow_window, hv]; rfl, h v⟩
  · exact ⟨v, by rwa [State.modWindow_window_ne _ hj], rfl⟩

theorem modWindows {f : Window → Window} (h : ∀ w, (f w).wordKey = w.wordKey) : (s.modWindows f).Coherent :=
  hs.ofEntries (fun i v hv => ⟨f v, by rw [State.modWindows_window, hv]; rfl, h v⟩) (State.modWindows_link s f)
    (by rw [State.modWindows_eq]; exact fun _ _ hc => hc)

/-- An OFF entry becomes valid: no word was one of its (R3). -/
theorem setEntry {i : Index} (hoff : s.window i = none) (w : Window) : (s.setWindow i (some w)).Coherent :=
  hs.ofEntries
    (fun j v hv => by
      have hj : j ≠ i := by
        rintro rfl
        cases hoff.symm.trans hv
      exact ⟨v, by rwa [State.setWindow_window_ne _ hj], rfl⟩)
    (fun l => State.setWindow_link _ _ _ _) fun _ _ hc => hc

theorem withExport (i : Index) (x : ExportState) : (s.modWindow i (·.withExport x)).Coherent :=
  hs.modWindow fun _ => rfl

theorem withImport (i : Index) (m : ImportState) : (s.modWindow i (·.withImport m)).Coherent :=
  hs.modWindow fun _ => rfl

end State.Coherent
end Sys2Proof.Machine
end

section
/-! SUPPORT. Notices, sides, the host port, the apply queue and the memory port keep the law of conflicts and words. -/

namespace Sys2Proof.Machine

namespace State.Coherent

variable {s t : State} (hs : s.Coherent)
include hs

/-! ## Notices, sides and sweeps -/

theorem setFlushDue (l : LinkId) : (s.setFlushDue l).Coherent := hs.quiet rfl

theorem withNotice (i : Index) (b : Bool) : (s.modWindow i fun w => { w with notice := b }).Coherent :=
  hs.modWindow fun _ => rfl

theorem setNotice (i : Index) : (s.setNotice i).Coherent := by
  unfold State.setNotice
  split
  · split
    · exact (hs.withNotice i true).setFlushDue _
    · exact hs
  · exact hs

theorem abortSweep (l : LinkId) (c : Cause) : (s.abortSweep l c).Coherent := by
  unfold State.abortSweep
  split
  · exact hs
  next sw _ =>
    have stopped := hs.modLink (Link.conserves_idleSweep (s.link l)
      (if (s.link l).sweep.read = .current then .orphan else (s.link l).sweep.read))
      (f := fun k => { k with sweep :=
        { active := none, read := if k.sweep.read = .current then .orphan else k.sweep.read } })
    have stale := (stopped.withExport sw.window .stale).raise (.sweepAborted sw.window c)
    dsimp only
    split
    · exact stopped.raise _
    · split
      · exact stale.setNotice _
      · exact stale

theorem localStale (i : Index) (c : Cause) : (s.localStale i c).Coherent := by
  unfold State.localStale
  split
  · exact hs
  · split
    · have stale := (hs.withExport i .stale).raise (.windowStale i .exportSide c)
      dsimp only
      split
      · exact stale.setNotice i
      · exact stale
    · exact hs.abortSweep _ _
    · exact hs
    · exact hs

theorem importStale (i : Index) (c : Cause) : (s.importStale i c).Coherent := by
  unfold State.importStale
  split
  · exact hs
  · split
    · exact (hs.withImport _ _).raise _
    · exact (hs.withImport _ _).raise _
    · exact hs
    · exact hs

theorem applyControl (l : LinkId) (r : Record) : (s.applyControl l r).Coherent := by
  unfold State.applyControl
  split
  · exact hs
  · split
    · exact hs.withImport _ _
    · split
      · exact (hs.withImport _ _).raise _
      · exact hs
    · exact hs.importStale _ _
    · exact hs

/-! ## Capture and frame build -/

theorem captureWrite {i : Index} {w : Window} {o : Offset} (hw : s.window i = some w) (lt : o.toNat < w.words)
    (m : LaneMask) (d : Word) : (s.captureWrite w o m d).Coherent := by
  have entered := hs.modLink (Link.conserves_captureWrite (s.link w.link) w o m d)
    (f := fun k => if k.mergesInto w o then
        { k with capture := { k.capture with queue := mergeNewest w.tag o m d k.capture.queue } }
      else k.enqueue (.record (.write w.tag o m d)))
  exact entered.noteCapture (by rwa [State.modLink_window]) lt

theorem capturePlaceholder {i : Index} {w : Window} {o : Offset} (hw : s.window i = some w) (lt : o.toNat < w.words) :
    (s.capturePlaceholder w.link w o).Coherent :=
  State.Coherent.noteCapture (hs.quiet rfl) (by rwa [State.modLink_window]) lt

theorem removePlaceholder (l : LinkId) : (s.removePlaceholder l).Coherent :=
  hs.modLink (Link.conserves_dropPlaceholder _)

theorem clearNotices (is : List Index) : (s.clearNotices is).Coherent := by
  induction is generalizing s with
  | nil => exact hs
  | cons i is ih => exact ih (hs.withNotice i false)

theorem frameBuild (l : LinkId) : (s.frameBuild l).Coherent := by
  unfold State.frameBuild
  split
  · split
    next ready =>
      simp only [State.buildReady, Bool.and_eq_true, Bool.not_eq_true'] at ready
      obtain ⟨⟨⟨⟨⟨carrying, -⟩, -⟩, free⟩, -⟩, -⟩ := ready
      have link (is : List Index) : (s.clearNotices is).link l = s.link l := by
        rw [State.clearNotices_eq]
        cases l <;> rfl
      unfold State.buildFrame
      refine (hs.clearNotices _).modLink ?_
      rw [link]
      exact Link.conserves_build carrying free _ _ _ _
    next => exact hs
  · exact hs

/-! ## The host port -/

/-- The host port changes and the access in progress keeps its classification. -/
theorem withHost {h : HostPort} (hc : h.classification = s.host.classification) :
    ({ s with host := h } : State).Coherent := hs.congr rfl rfl rfl fun i o => by rw [hc]; exact id

theorem claimHost (h : Handling) : (s.claimHost h).Coherent := hs.withHost rfl

theorem completeHost (fault : Bool) (data : Option Word) : (s.completeHost fault data).Coherent :=
  hs.congr rfl rfl rfl nofun

theorem roomTest : s.roomTest.Coherent := by
  unfold State.roomTest
  split
  · split
    · exact hs.claimHost _
    · split <;> exact hs.withHost rfl
  · exact hs

theorem exportWrite (i : Index) (w : Window) : (s.exportWrite i w).Coherent := by
  unfold State.exportWrite
  split
  · exact hs.claimHost _
  · exact hs.claimHost _
  all_goals
    split
    · exact hs.claimHost _
    · exact hs.claimHost _
    · exact hs.claimHost _
    · exact (hs.claimHost _).localStale _ _
    · exact (hs.claimHost _).localStale _ _
    · exact (hs.claimHost _).localStale _ _

theorem proceedHost : s.proceedHost.Coherent := by
  unfold State.proceedHost
  split
  · split
    · split
      · exact hs.completeHost _ _
      · exact hs.completeHost _ _
      · exact hs.claimHost _
      · exact hs.claimHost _
    · exact hs.claimHost _
    · exact hs.claimHost _
    · exact hs.exportWrite _ _
    · exact hs.exportWrite _ _
  · exact hs.claimHost _

theorem waitDrain (w : Window) (o : Offset) : (s.waitDrain w o).Coherent := by
  have marked := hs.quiet (l := w.link)
    (f := fun k => { k with apply := { k.apply with queue := markNewest w.tag o k.apply.queue } }) rfl
  exact marked.withHost rfl

/-- The lookup at arrival classifies an access against a word of the window that holds it (R10, R135). -/
theorem arrive (acc : Access) : (s.arrive acc).Coherent := by
  unfold State.arrive
  split
  · exact hs.completeHost _ _
  · split
    · exact hs.congr rfl rfl rfl nofun
    next i found =>
      split
      · exact hs
      next w hw =>
        have holds : w.holds acc.addr = true := by
          have := List.find?_some found
          rwa [hw] at this
        have classified : ({ s with host := { HostPort.reset with
            access := some acc, classification := some (.window i (w.offsetOf acc.addr)) } } : State).Coherent := {
          conflict := hs.conflict
          host := fun j o hc => by
            obtain ⟨rfl, rfl⟩ := Classification.window.inj (Option.some.inj hc)
            exact ⟨w, hw, Window.offsetOf_lt holds⟩
          sweep := hs.sweep
          pending := hs.pending }
        dsimp only
        split
        · exact classified.waitDrain _ _
        · exact classified.proceedHost

theorem endDrain : s.endDrain.Coherent := by
  unfold State.endDrain
  split
  · exact hs.proceedHost
  · exact hs

theorem holdExpiry : s.holdExpiry.Coherent := by
  unfold State.holdExpiry
  split
  · exact (hs.claimHost _).localStale _ _
  · exact hs.claimHost _

theorem softResetHost : s.softResetHost.Coherent := by
  unfold State.softResetHost
  split
  · exact hs
  · exact hs.withHost rfl
  all_goals
    split
    · split
      · split
        · exact hs.completeHost _ _
        · exact hs.completeHost _ _
        · exact hs.claimHost _
        · exact hs.claimHost _
      · exact hs.claimHost _
    · exact hs.claimHost _

/-! ## The apply queue -/

theorem offerHorizon (l : LinkId) (v : Seq) : (s.offerHorizon l v).Coherent := by
  rw [State.offerHorizon_eq]
  exact hs.modLink (Link.conserves_horizonAfter _ _)

theorem offerHead (l : LinkId) : (s.offerHead l).Coherent := by
  unfold State.offerHead
  split
  · exact hs.offerHorizon _ _
  · exact hs

theorem offerIdle (l : LinkId) (ack next : Seq) : (s.offerIdle l ack next).Coherent := by
  unfold State.offerIdle
  dsimp only
  split
  · exact hs.offerHorizon _ _
  · exact hs

theorem offerFrame (l : LinkId) (seen : Seq) (items : List Record) : (s.offerFrame l seen items).Coherent := by
  have taken := hs.quiet (l := l) (f := fun k => { k.takeRecords seen items with
      rx := { (k.takeRecords seen items).rx with
        receiveExpected := (k.takeRecords seen items).rx.receiveExpected + 1, nakSent := false } }) rfl
  unfold State.offerFrame
  dsimp only
  split
  · split
    · exact taken.offerHead l
    · exact taken
  · exact hs

theorem popApply (l : LinkId) : (s.popApply l).Coherent := by
  have popped := hs.quiet (l := l)
    (f := fun k => Link.evalHold { k with apply := { k.apply with queue := k.apply.queue.tail, outstanding := .none } }) rfl
  exact (popped.offerHead l).endDrain

theorem discardHead (l : LinkId) (t : Tag) (e : Option Cause) : (s.discardHead l t e).Coherent := by
  unfold State.discardHead
  cases e with
  | none => exact hs.popApply _
  | some c => exact (hs.raise _).popApply _

theorem decideControl (l : LinkId) : (s.decideControl l).Coherent := by
  unfold State.decideControl
  split
  · exact (hs.applyControl _ _).popApply _
  · exact hs

/-! ## Grants -/

theorem withPort (p : Option PortTransaction) : ({ s with port := p } : State).Coherent := hs.outside rfl rfl rfl rfl

theorem countHostGrant : s.countHostGrant.Coherent := by
  unfold State.countHostGrant
  dsimp only
  exact State.Coherent.quiet (hs.quiet rfl) rfl

/-- The host grant captures a word of the window of the access (R23, R142). -/
theorem grantHost : s.grantHost.Coherent := by
  unfold State.grantHost
  split
  · exact hs
  next acc _ =>
    have counted (p : Option PortTransaction) (h : HostPort) (hc : h.classification = s.host.classification) :
        ({ s.countHostGrant with port := p, host := h } : State).Coherent :=
      (hs.countHostGrant.withPort p).withHost (by rw [hc]; simp [State.countHostGrant])
    dsimp only
    split
    next d i w o _ _ target =>
      obtain ⟨hw, lt⟩ := hs.target_lt target
      refine State.Coherent.captureWrite (i := i) ?_ ?_ lt acc.mask d
      · exact counted _ _ rfl
      · exact (congrArg (fun v : Vector (Option Window) 16 => v[i]) s.countHostGrant_windows).trans hw
    next => exact counted _ _ rfl

/-- The grant of a sweep read queues a placeholder for a word of the window that its link's engine sweeps (R110). -/
theorem grantSweep (l : LinkId) : (s.grantSweep l).Coherent := by
  unfold State.grantSweep
  split
  · exact hs
  next i w o claim =>
    obtain ⟨hw, rfl, lt⟩ := hs.claim_lt claim
    have queued := hs.capturePlaceholder hw lt
    have current := queued.quiet (l := w.link)
      (f := fun k => { k with sweep := { k.sweep with read := .current }, patience := { k.patience with sweep := 0 } }) rfl
    exact current.outside rfl rfl rfl rfl

theorem grantApply (l : LinkId) (i : Index) (addr : WordAddr) (m : LaneMask) (d : Word) :
    (s.grantApply l i addr m d).Coherent := by
  have granted := hs.quiet (l := l) (f := fun k =>
    { k with apply := { k.apply with outstanding := .forWindow i }, patience := { k.patience with apply := 0 } }) rfl
  exact granted.outside rfl rfl rfl rfl

omit hs in
theorem arbitrate (fuel : Nat) : ∀ {s : State}, s.Coherent → (s.arbitrate fuel).Coherent := by
  induction fuel with
  | zero => exact fun hs => hs
  | succ fuel ih =>
    intro s hs
    unfold State.arbitrate
    split
    · exact hs
    · split
      · exact hs
      · exact hs.grantHost
      · exact hs.grantSweep _
      · split
        · split
          · exact hs.grantApply _ _ _ _ _
          · exact ih (hs.discardHead _ _ _).roomTest
        · exact hs

theorem arbiterChoice : s.arbiterChoice.Coherent := State.Coherent.arbitrate _ hs

/-! ## Completions -/

theorem completeHostAccess (kind : AccessKind) (status : MemStatus) : (s.completeHostAccess kind status).Coherent := by
  unfold State.completeHostAccess
  cases status with
  | ok d => exact hs.completeHost _ _
  | fault =>
    dsimp only
    split
    · exact (hs.completeHost _ _).localStale _ _
    · exact hs.completeHost _ _

theorem completeApply (l : LinkId) (status : MemStatus) : (s.completeApply l status).Coherent := by
  unfold State.completeApply
  split
  · exact hs
  · exact hs.popApply _
  · cases status with
    | ok d => exact hs.popApply _
    | fault => exact (hs.popApply _).importStale _ _

/-- The engine goes on to the next word of its window, or stays at the last (R111). -/
theorem sweepReadOk {l : LinkId} {sw : ActiveSweep} {w : Window} (active : (s.link l).sweep.active = some sw)
    (hw : s.window sw.window = some w) (d : Word) : (s.sweepReadOk l sw w d).Coherent := by
  obtain ⟨v, hv, link, lt⟩ := hs.sweep l sw active
  obtain rfl := Option.some.inj (hw.symm.trans hv)
  have filled : (s.fillRead l (decide (w.coalesce = some true)) d).Coherent := hs.quiet rfl
  have law := filled.conflict l
  unfold State.sweepReadOk
  refine filled.changeLink { law with } (fun next hnext => ?_) (filled.pending l)
  obtain rfl := Option.some.inj hnext
  have window : (s.fillRead l (decide (w.coalesce = some true)) d).window sw.window = some w := by
    rwa [State.fillRead, State.modLink_window]
  split
  next more => exact ⟨w, window, link, Offset.toNat_succ_lt more⟩
  next => exact ⟨w, window, link, lt⟩

theorem completeSweep (l : LinkId) (status : MemStatus) : (s.completeSweep l status).Coherent := by
  have done : (s.modLink l Link.readDone).Coherent := hs.quiet rfl
  unfold State.completeSweep
  dsimp only
  split
  · exact done
  · exact done.removePlaceholder _
  · exact done.removePlaceholder _
  next active =>
    split
    next hw => exact done.sweepReadOk active hw _
    · exact done.removePlaceholder _
    · exact (done.removePlaceholder _).abortSweep _ _

theorem completeOwner (p : PortTransaction) (status : MemStatus) : (s.completeOwner p status).Coherent := by
  unfold State.completeOwner
  split
  · exact hs.completeHostAccess _ _
  · exact hs.completeApply _ _
  · exact hs.completeSweep _ _
  · exact hs

theorem complete (p : PortTransaction) (status : MemStatus) : (s.complete p status).Coherent :=
  ((hs.withPort none).completeOwner p status).roomTest.arbiterChoice

end State.Coherent
end Sys2Proof.Machine
end

section
/-! SUPPORT. Links, the transmitter, the receiver and the clear of a window keep the law of conflicts and words. -/

namespace Sys2Proof.Machine

/-- An access to a window that is cleared is classified against no window any more (R8, R144). -/
theorem HostPort.classification_of_forget {h : HostPort} {i j : Index} {o : Offset}
    (hc : (h.forget i).classification = some (.window j o)) : h.classification = some (.window j o) ∧ j ≠ i := by
  by_cases mine : ∃ o, h.classification = some (.window i o)
  · obtain ⟨o', mine⟩ := mine
    cases held : h.phase.held with
    | true => simp [HostPort.forget_held mine held] at hc
    | false => simp [HostPort.forget_not_held mine held] at hc
  · push Not at mine
    rw [HostPort.forget_other mine] at hc
    refine ⟨hc, ?_⟩
    rintro rfl
    exact mine o hc

theorem State.releaseWindow_window_ne (s : State) {i j : Index} (l : LinkId) (h : j ≠ i) :
    (s.releaseWindow i l).window j = s.window j := by
  simp [State.releaseWindow, State.setWindow_window_ne _ h]

/-! ## The link of a window that is cleared -/

theorem Link.conserves_stopSweepOf (k : Link) (i : Index) : k.Conserves (k.stopSweepOf i) where
  law hk := { hk with }
  words e he := ⟨e, he, rfl⟩
  sweep sw hsw := by
    rw [Link.stopSweepOf_active] at hsw
    split at hsw
    · cases hsw
    · exact hsw

theorem Link.stopSweepOf_window_ne {k : Link} {i : Index} {sw : ActiveSweep}
    (h : sw ∈ (k.stopSweepOf i).sweep.active) : sw.window ≠ i := by
  rintro rfl
  rw [Link.stopSweepOf_active] at h
  split at h
  next => cases h
  next other => exact other (by rw [h, Option.map_some])

/-- The pending entries of a cleared SHARED window go (R96). -/
theorem Link.conserves_cleared (k : Link) (i : Index) (w : Window) : k.Conserves (k.cleared i w) := by
  have dropped : k.Conserves { k with
      apply := { k.apply with outstanding := k.apply.outstanding.forget i }
      conflict := if w.isShared then k.conflict.dropTag w.tag else k.conflict } := by
    split
    next =>
      exact {
        law := fun hk => { hk.shrink (table := (k.conflict.dropTag w.tag).table) List.filter_sublist with }
        words := fun e he => ⟨e, (List.mem_filter.1 he).1, rfl⟩
        sweep := fun _ hsw => hsw }
    next => exact .of_footing rfl
  unfold Link.cleared
  dsimp only
  split
  · exact dropped.trans (Link.conserves_purged _ _)
  · exact dropped

theorem Link.tag_ne_of_cleared {k : Link} {i : Index} {w : Window} {e : PendingWrite}
    (he : e ∈ (k.cleared i w).conflict.table) (shared : w.isShared = true) : w.tag ≠ e.tag := by
  have left : ∃ e₀ ∈ (k.conflict.dropTag w.tag).table, e.word = e₀.word := by
    simp only [Link.cleared, shared, if_true] at he
    split at he
    · exact (Link.conserves_purged _ _).words e he
    · exact ⟨e, he, rfl⟩
  obtain ⟨e₀, he₀, word⟩ := left
  have other : e₀.tag ≠ w.tag := by simpa using (List.mem_filter.1 he₀).2
  rw [(Prod.mk.inj word).1]
  exact other.symm

/-- Each link when an entry has been released: no sweep of its window is left (R113). -/
theorem State.releaseWindow_conserves (s : State) (i : Index) (l l' : LinkId) :
    (s.link l').Conserves ((s.releaseWindow i l).link l') := by
  by_cases hl : l' = l
  · subst hl
    obtain ⟨q, -, link⟩ := s.releaseWindow_link i l'
    rw [link]
    exact (Link.conserves_stopSweepOf _ i).trans (.of_footing rfl)
  · obtain ⟨q, -, link⟩ := s.releaseWindow_link_ne i hl
    rw [link]
    exact .of_footing rfl

theorem State.releaseWindow_unswept (s : State) (i : Index) (l : LinkId) {sw : ActiveSweep}
    (h : sw ∈ ((s.releaseWindow i l).link l).sweep.active) : sw.window ≠ i := by
  obtain ⟨q, -, link⟩ := s.releaseWindow_link i l
  rw [link] at h
  exact Link.stopSweepOf_window_ne h

namespace State.Coherent

variable {s t : State} (hs : s.Coherent)
include hs

/-! ## The clear of a window -/

/-- All entries but one stay, no link takes up a word, and nothing that is kept names a word of that entry. -/
theorem dropEntry {i : Index} (entries : ∀ j, j ≠ i → t.window j = s.window j)
    (links : ∀ l, (s.link l).Conserves (t.link l))
    (host : ∀ j o, t.host.classification = some (.window j o) → s.host.classification = some (.window j o) ∧ j ≠ i)
    (sweep : ∀ l, ∀ sw ∈ (t.link l).sweep.active, sw.window ≠ i)
    (pending : ∀ l, ∀ e ∈ (t.link l).conflict.table, ∀ w ∈ s.window i, w.link = l → w.isShared = true →
      w.tag ≠ e.tag) : t.Coherent where
  conflict l := (links l).law (hs.conflict l)
  host j o hc := by
    obtain ⟨hc, other⟩ := host j o hc
    obtain ⟨w, hw, lt⟩ := hs.host j o hc
    exact ⟨w, by rwa [entries j other], lt⟩
  sweep l sw hsw := by
    obtain ⟨w, hw, word⟩ := hs.sweep l sw ((links l).sweep sw hsw)
    exact ⟨w, by rwa [entries _ (sweep l sw hsw)], word⟩
  pending l e he := by
    obtain ⟨e₀, he₀, word⟩ := (links l).words e he
    obtain ⟨j, w, hw, link, shared, tag, lt⟩ := hs.pending l e₀ he₀
    rw [← word] at tag lt
    have other : j ≠ i := by
      rintro rfl
      exact pending l e he w hw link shared tag
    exact ⟨j, w, by rwa [entries j other], link, shared, tag, lt⟩

/-- The clear of an entry stops its sweep, takes the access in progress off it and removes its pending entries, so no word of
it is left (R7, R8, R96). -/
theorem clearWindow {i : Index} {w : Window} (hw : s.window i = some w) : (s.clearWindow i w).Coherent := by
  have links := State.modLink_forall (s := s.releaseWindow i w.link) (l := w.link) (f := (·.cleared i w))
    (P := fun l k => (s.link l).Conserves k ∧ (∀ sw ∈ k.sweep.active, sw.window ≠ i) ∧
      ∀ e ∈ k.conflict.table, w.link = l → w.isShared = true → w.tag ≠ e.tag)
    ⟨(s.releaseWindow_conserves i _ _).trans (Link.conserves_cleared _ i w),
      fun sw hsw => s.releaseWindow_unswept i w.link (by rwa [Link.cleared_sweep] at hsw),
      fun e he _ => Link.tag_ne_of_cleared he⟩
    fun l hl => by
      have kept := s.releaseWindow_conserves i w.link l
      refine ⟨kept, fun sw hsw => ?_, fun e _ link => absurd link.symm hl⟩
      rintro rfl
      obtain ⟨v, hv, link, -⟩ := hs.sweep l sw (kept.sweep sw hsw)
      obtain rfl := Option.some.inj (hw.symm.trans hv)
      exact hl link.symm
  have cleared : ((s.releaseWindow i w.link).modLink w.link (·.cleared i w)).Coherent := by
    refine hs.dropEntry (i := i) (fun j hj => ?_) (fun l => (links l).1) (fun j o hc => ?_) (fun l => (links l).2.1)
      fun l e he v hv => ?_
    · rw [State.modLink_window, State.releaseWindow_window_ne _ _ hj]
    · rw [State.modLink_host, State.releaseWindow_host] at hc
      exact HostPort.classification_of_forget hc
    · obtain rfl := Option.some.inj (hw.symm.trans hv)
      exact (links l).2.2 e he
  unfold State.clearWindow
  dsimp only
  rw [State.abortSweep_cleared]
  split
  next himp =>
    rw [State.purgeApply_eq, State.modLink_modLink]
    simp only [Link.cleared_of_hasImport himp] at cleared
    exact cleared.endDrain
  next himp =>
    simp only [Link.cleared, if_neg himp] at cleared
    exact cleared

/-! ## Links -/

theorem enterDown (l : LinkId) (r : Option FaultReason) : (s.enterDown l r).Coherent := by
  have down := (hs.modLink (f := (·.goDown r)) (Link.conserves_goDown (s.link l) r)).abortSweep l .linkLeftUp
  have stale := down.modWindows (f := Window.linkDown l) fun w => by
    unfold Window.linkDown
    split <;> rfl
  unfold State.enterDown
  cases r <;> exact stale.raise _

theorem faultLink (l : LinkId) (r : FaultReason) : (s.faultLink l r).Coherent := by
  unfold State.faultLink
  split
  · exact hs.enterDown _ _
  · exact hs

theorem enterDraining {l : LinkId} (hup : s.linkState l = .up) : (s.enterDraining l).Coherent :=
  (hs.modLink (Link.conserves_state (x := .draining) (congrArg LinkState.carrying hup).symm)).abortSweep _ _

theorem drainComplete (l : LinkId) : (s.drainComplete l).Coherent := by
  unfold State.drainComplete
  dsimp only
  split
  · exact hs.enterDown _ _
  · exact hs

theorem enterUp {l : LinkId} (idle : (s.linkState l).carrying = false) (p : Peer) (hold : Bool) :
    (s.enterUp l p hold).Coherent := by
  have ranked : (if p.id.toNat < s.config.nodeId.toNat then Rank.senior else .junior) ≠ .unknown := by split <;> decide
  have started := Link.conserves_startUp (k := s.link l) idle ranked
    (effectiveClassOf (s.link l).config.frameClass p.acceptance)
  exact State.Coherent.raise (hs.modLink (started.trans (.of_footing rfl))) _

theorem enterUpLoop {l : LinkId} (idle : (s.linkState l).carrying = false) : (s.enterUpLoop l).Coherent := by
  have started := Link.conserves_startUp (k := s.link l) idle (rank := .self) (by decide) (s.link l).config.frameClass
  exact State.Coherent.raise (hs.modLink (started.trans (.of_footing rfl))) _

theorem enterHunting {l : LinkId} (idle : (s.linkState l).carrying = false) : (s.enterHunting l).Coherent := by
  unfold State.enterHunting
  exact hs.modLink ((Link.conserves_state (x := .hunting) idle.symm).trans (.of_footing rfl))

theorem disableLink (l : LinkId) (force : Bool) : (s.disableLink l force).Coherent := by
  unfold State.disableLink
  split
  · exact hs
  · exact hs.enterDown _ _
  · exact hs.enterDown _ _
  next hup =>
    split
    · exact (hs.enterDraining hup).enterDown _ _
    · exact hs.enterDraining hup
  · split
    · exact hs.enterDown _ _
    · exact hs
  · exact hs.enterDown _ _

/-! ## The transmitter -/

theorem driveIntn : s.driveIntn.Coherent := hs.outside rfl rfl rfl rfl

theorem finish : s.finish.Coherent :=
  ((((hs.drainComplete .a).drainComplete .b).modLink (Link.conserves_loopStart _)).modLink
    (Link.conserves_loopStart _)).roomTest.driveIntn

theorem goBack (l : LinkId) : (s.goBack l).Coherent := by
  have back : (s.modLink l Link.goneBack).Coherent := hs.quiet rfl
  unfold State.goBack
  dsimp only
  split
  · exact back.faultLink _ _
  · exact back

theorem receiveIdle (l : LinkId) (ack : Seq) (hold : Bool) : (s.receiveIdle l ack hold).Coherent :=
  hs.modLink ((Link.conserves_acknowledge _ _).trans (.of_footing rfl))

theorem receiveNak (l : LinkId) (expected : Seq) : (s.receiveNak l expected).Coherent := by
  have acked := hs.modLink (f := (·.acknowledge expected)) (Link.conserves_acknowledge (s.link l) expected)
  unfold State.receiveNak
  dsimp only
  split
  · exact acked.goBack _
  · exact acked

theorem loopDeliver (l : LinkId) (f : Frame) : (s.loopDeliver l f).Coherent := by
  have ended := hs.quiet (l := l) (f := fun k => { k with tx := { k.tx with output := .rest } }) rfl
  unfold State.loopDeliver
  dsimp only
  split
  · exact (ended.modLink (Link.conserves_acknowledge _ _)).offerFrame _ _ _
  · exact ended.quiet rfl

theorem endFrame (l : LinkId) : (s.endFrame l).Coherent := by
  unfold State.endFrame
  split
  · split
    · have ended : (s.link l).Conserves { s.link l with tx := { (s.link l).tx with idleSent := false } } :=
        .of_footing rfl
      exact hs.modLink (ended.trans (Link.conserves_chooseSymbol _))
    · exact hs.loopDeliver _ _
  · exact hs
  · exact hs

/-! ## The receiver -/

/-- Line loss takes a TRAINING link back to HUNTING, and neither carries frames (R64, R123). -/
theorem lineLoss (l : LinkId) : (s.lineLoss l).Coherent := by
  have lost : (s.modLink l Link.misaligned).Coherent := hs.quiet rfl
  unfold State.lineLoss
  dsimp only
  split
  next training =>
    exact lost.modLink ((Link.conserves_state (x := .hunting) (congrArg LinkState.carrying training).symm).trans
      (.of_footing rfl))
  · exact lost.faultLink _ _
  · exact lost.faultLink _ _
  all_goals exact lost

theorem classifyFrame (l : LinkId) (seq seen : Seq) (items : List Record) :
    (s.classifyFrame l seq seen items).Coherent := by
  unfold State.classifyFrame
  split
  · exact hs.offerFrame _ _ _
  · exact hs
  · exact hs.modLink (Link.conserves_requestNak _)

theorem receiveData (l : LinkId) (p : Payload) : (s.receiveData l p).Coherent := by
  unfold State.receiveData
  split
  · exact hs
  · split
    · exact hs.quiet rfl
    · exact hs.modLink (Link.conserves_damage _)
    · exact State.Coherent.classifyFrame (hs.quiet rfl) _ _ _ _

/-- A TRAINING link carries no frames, so it enters UP with no numbered entry (R103, R125). -/
theorem symbolInTraining {l : LinkId} (training : s.linkState l = .training) (sym : SymbolKind) :
    (s.symbolInTraining l sym).Coherent := by
  have idle : (s.linkState l).carrying = false := congrArg LinkState.carrying training
  unfold State.symbolInTraining
  split
  next id c y =>
    unfold State.helloInTraining
    split
    · exact hs.faultLink _ _
    · have recorded := hs.quiet (l := l) (f := fun k => { k with control := { k.control with
          peer := some { id, acceptance := if c then .sixteen else .eight } } }) rfl
      dsimp only
      split
      · exact recorded.enterUp (by rw [State.modLink_linkState]; exact idle) _ _
      · exact recorded
  · unfold State.idleInTraining
    split
    · exact hs.enterUp idle _ _
    · exact hs
  all_goals exact hs

theorem symbolInUp (l : LinkId) (p : Payload) (sym : SymbolKind) : (s.symbolInUp l p sym).Coherent := by
  have damaged := hs.modLink (f := Link.damageAssembly) (Link.conserves_damageAssembly (s.link l))
  unfold State.symbolInUp
  cases sym with
  | hello id c seenYou =>
    dsimp only
    split
    · exact damaged
    · exact damaged.faultLink _ _
  | idle ack next hold => exact (damaged.receiveIdle _ _ _).offerIdle _ _ _
  | nak expected => exact damaged.receiveNak _ _
  | frameStart seq seen count =>
    exact hs.modLink ((Link.conserves_damageAssembly _).trans (Link.conserves_beginFrame _ _ _ _ _))
  | data p => exact hs.receiveData _ _
  | malformed => exact hs

theorem alignedSymbol (l : LinkId) (p : Payload) (sym : SymbolKind) : (s.alignedSymbol l p sym).Coherent := by
  unfold State.alignedSymbol
  split
  next training => exact hs.symbolInTraining training _
  · exact hs.symbolInUp _ _ _
  · exact hs.symbolInUp _ _ _
  all_goals exact hs

theorem malformedSymbol (l : LinkId) : (s.malformedSymbol l).Coherent := by
  have damaged := hs.modLink (f := Link.damageAssembly) (Link.conserves_damageAssembly (s.link l))
  unfold State.malformedSymbol
  dsimp only
  split
  · exact damaged.lineLoss _
  · exact damaged.quiet rfl

theorem huntSymbol (l : LinkId) (p : Payload) (sym : SymbolKind) : (s.huntSymbol l p sym).Coherent := by
  unfold State.huntSymbol
  split
  · split
    · exact (hs.modLink (Link.conserves_align _)).alignedSymbol _ _ _
    · exact hs.quiet rfl
  · exact hs.quiet rfl

theorem receiveSymbol (l : LinkId) (sym : Symbol) : (s.receiveSymbol l sym).Coherent := by
  have heard : (if decodeSymbol sym = .malformed then s else s.modLink l Link.restartSilence).Coherent := by
    split
    · exact hs
    · exact hs.quiet rfl
  unfold State.receiveSymbol
  dsimp only
  generalize (if decodeSymbol sym = .malformed then s else s.modLink l Link.restartSilence) = u at heard ⊢
  split
  · exact heard.huntSymbol _ _ _
  · split
    · exact heard.malformedSymbol _
    · exact State.Coherent.alignedSymbol (heard.quiet rfl) _ _ _

theorem silenceExpiry (l : LinkId) : (s.silenceExpiry l).Coherent := by
  unfold State.silenceExpiry
  split
  · exact hs.quiet rfl
  · exact hs.lineLoss _

end State.Coherent
end Sys2Proof.Machine
end

section
/-! STATEMENTS. Pending writes, horizons, stall distances and word offsets: every request, every command, and so every step,
keeps their laws. -/

namespace Sys2Proof.Machine

namespace State.Coherent

variable {s t : State} (hs : s.Coherent)
include hs

/-! ## Sweeps -/

/-- The engine begins at the first word of the window that it is active for (R108). -/
theorem queueOpen (l : LinkId) : (s.queueOpen l).Coherent := by
  unfold State.queueOpen
  split
  next i w marker =>
    obtain ⟨sw, active, -, rfl⟩ := State.markerWindow_eq_some marker
    have law := hs.conflict l
    refine hs.changeLink { law with } (fun next hnext => ?_) (hs.pending l)
    obtain rfl := Option.some.inj hnext
    obtain ⟨v, hv, link, -⟩ := hs.sweep l sw active
    exact ⟨v, hv, link, v.words_pos⟩
  next => exact hs

theorem queueClose (l : LinkId) : (s.queueClose l).Coherent := by
  unfold State.queueClose
  split
  next i w _ =>
    have queued : (s.link l).Conserves ((s.link l).enqueue (.record (.sweepClose w.tag))) := .of_footing rfl
    have closed := hs.modLink (l := l) (f := fun k =>
      { k.enqueue (.record (.sweepClose w.tag)) with sweep := { k.sweep with active := none } })
      (queued.trans (Link.conserves_idleSweep _ _))
    exact (closed.withExport i .inStep).raise _
  next => exact hs

/-- A sweep starts at the first word of a window of the link (R107). -/
theorem startSweep {i : Index} {w : Window} (hw : s.window i = some w) : (s.startSweep i w).Coherent := by
  have sweeping := hs.withExport i .sweeping
  have law := sweeping.conflict w.link
  have started : ((s.modWindow i (·.withExport .sweeping)).modLink w.link fun k =>
      { k with sweep := { k.sweep with active := some { phase := .opening, window := i, next := 0 } } }).Coherent := by
    refine sweeping.changeLink { law with } (fun sw hsw => ?_) (sweeping.pending w.link)
    obtain rfl := Option.some.inj hsw
    exact ⟨w.withExport .sweeping, by rw [State.modWindow_window, hw]; rfl, rfl, Window.words_pos _⟩
  have opened := started.queueOpen w.link
  unfold State.startSweep State.holdBecomesCapturing
  dsimp only
  split
  · exact opened.withHost rfl
  · exact opened

/-! ## Requests -/

theorem markTaken : s.markTaken.Coherent := by
  rw [State.markTaken_eq]
  exact hs.outside rfl rfl rfl rfl

theorem respond (code : Byte) (st : Status) (d : List Byte) : (s.respond code st d).Coherent := by
  rw [State.respond_eq]
  exact hs.outside rfl rfl rfl rfl

theorem respondOk (code : Byte) : (s.respondOk code).Coherent := hs.respond _ _ _

theorem refuse (code : Byte) (r : Reason) : (s.refuse code r).Coherent := hs.respond _ _ _

theorem partConfigSet (f : PartConfigFields) : (s.partConfigSet f).Coherent := by
  unfold State.partConfigSet
  split
  · exact hs.refuse _ _
  next cfg _ =>
    have configured : ({ s with config := cfg } : State).Coherent := hs.outside rfl rfl rfl rfl
    split
    · exact hs.refuse _ _
    · exact (configured.respondOk _).driveIntn

theorem windowSet (index : Byte) (f : WindowFields) : (s.windowSet index f).Coherent := by
  unfold State.windowSet
  split
  · exact hs.refuse _ _
  · split_ifs with valid
    · exact hs.refuse _ _
    · split
      · exact hs.refuse _ _
      · split_ifs
        · exact hs.refuse _ _
        · exact hs.refuse _ _
        · exact (hs.setEntry (by simpa using valid) _).respondOk _

theorem windowClear (index : Byte) : (s.windowClear index).Coherent := by
  unfold State.windowClear
  split
  · exact hs.refuse _ _
  · split
    · exact hs.respondOk _
    next hw => exact ((hs.clearWindow hw).respondOk _).finish

theorem windowGet (index : Byte) : (s.windowGet index).Coherent := by
  unfold State.windowGet
  split
  · exact hs.refuse _ _
  · exact hs.respond _ _ _

theorem linkSet (link : Byte) (f : LinkFields) : (s.linkSet link f).Coherent := by
  unfold State.linkSet
  split
  · exact hs.refuse _ _
  · split
    · exact hs.refuse _ _
    · split
      · exact hs.refuse _ _
      · exact State.Coherent.respondOk (hs.quiet rfl) _

/-- A link that can be enabled carries no frames, so it has no rank (R91, R121, R131). -/
theorem linkEnable (link : Byte) : (s.linkEnable link).Coherent := by
  unfold State.linkEnable
  split
  · exact hs.refuse _ _
  · split
    · exact hs.refuse _ _
    next stopped =>
      have idle := LinkState.carrying_of_not_running stopped
      split
      · exact hs.refuse _ _
      · dsimp only
        split
        · exact ((hs.enterHunting idle).respondOk _).finish
        · exact ((hs.enterUpLoop idle).respondOk _).finish

theorem linkDisable (link force : Byte) : (s.linkDisable link force).Coherent := by
  unfold State.linkDisable
  split
  · exact hs.refuse _ _
  · exact ((hs.disableLink _ _).respondOk _).finish

theorem linkGet (link : Byte) : (s.linkGet link).Coherent := by
  unfold State.linkGet
  split
  · exact hs.refuse _ _
  · exact hs.respond _ _ _

theorem flush (link : Byte) : (s.flush link).Coherent := by
  unfold State.flush
  split
  · exact hs.refuse _ _
  · split
    · exact (hs.setFlushDue _).respondOk _
    · exact hs.refuse _ _

theorem sweepStart (index : Byte) : (s.sweepStart index).Coherent := by
  unfold State.sweepStart
  split
  · exact hs.refuse _ _
  · split
    · exact hs.refuse _ _
    next hw =>
      split_ifs
      iterate 4 exact hs.refuse _ _
      exact ((hs.startSweep hw).respondOk _).finish

theorem sweepAbort (index : Byte) : (s.sweepAbort index).Coherent := by
  unfold State.sweepAbort
  split
  · exact hs.refuse _ _
  · split
    · exact hs.refuse _ _
    · split
      · exact ((hs.abortSweep _ _).respondOk _).finish
      · exact hs.refuse _ _

theorem eventPop : s.eventPop.Coherent := by
  unfold State.eventPop
  split
  · exact hs.respond _ _ _
  next e rest _ =>
    have popped : ({ s with events := rest } : State).Coherent := hs.outside rfl rfl rfl rfl
    exact (popped.respond _ _ _).driveIntn

theorem eventClear : s.eventClear.Coherent := by
  have emptied : ({ s with events := [], overflow := false } : State).Coherent := hs.outside rfl rfl rfl rfl
  exact (emptied.respondOk 0x0F).driveIntn

theorem softReset : s.softReset.Coherent := by
  have stale := hs.modWindows (f := Window.allStale) fun _ => rfl
  have links := (stale.modLink (l := .a) (f := fun k => .reset k.config) (Link.conserves_reset _ _)).modLink
    (l := .b) (f := fun k => .reset k.config) (Link.conserves_reset _ _)
  have blocks : s.resetBlocks.Coherent := links.softResetHost.outside rfl rfl rfl rfl
  exact (blocks.respondOk 0x10).driveIntn

theorem badCommand (code : Byte) : (s.badCommand code).Coherent := by
  unfold State.badCommand
  split
  · exact hs.refuse _ _
  · exact hs

/-- Taking a request keeps the law, whatever the request (R153, Table 12-4). -/
theorem request (c : Instr) : (s.request c).Coherent := by
  cases c with
  | nop => exact hs.markTaken
  | partInfo | partConfigGet => exact hs.respond _ _ _
  | partConfigSet f => exact hs.partConfigSet _
  | windowSet index f => exact hs.windowSet _ _
  | windowClear index => exact hs.windowClear _
  | windowGet index => exact hs.windowGet _
  | linkSet link f => exact hs.linkSet _ _
  | linkEnable link => exact hs.linkEnable _
  | linkDisable link force => exact hs.linkDisable _ _
  | linkGet link => exact hs.linkGet _
  | flush link => exact hs.flush _
  | sweepStart index => exact hs.sweepStart _
  | sweepAbort index => exact hs.sweepAbort _
  | eventPop => exact hs.eventPop
  | eventClear => exact hs.eventClear
  | softReset => exact hs.softReset
  | badCommand code => exact hs.badCommand _
  | _ => exact hs

theorem endUntaken (clocked : List Byte) : (s.endUntaken clocked).Coherent := by
  unfold State.endUntaken
  split
  · exact hs
  · split
    · split
      · exact hs.request _
      · exact hs
    · exact hs.outside rfl rfl rfl rfl

/-! ## Commands and steps -/

theorem take {act : State → State} (ha : (act s).Coherent) (h : s.take act = .next t) : t.Coherent := by
  cases h
  split
  · exact ha
  · exact hs

theorem happening {can : Bool} {act : State → State} (ha : (act s).Coherent) (h : s.happening can act = .next t) :
    t.Coherent := by
  cases h
  split
  · exact ha.finish
  · exact hs

theorem tick : s.tick.Coherent := by
  unfold State.tick
  split
  · exact hs
  · have ticked : ((s.modLink .a Link.tick).modLink .b Link.tick).Coherent := State.Coherent.quiet (hs.quiet rfl) rfl
    exact ticked.congr rfl rfl rfl fun _ _ hc => hc

omit hs in
/-- After a reset no word is kept and no rank is recorded (R105, R133). -/
theorem of_reset (a : ∃ cfg, t.a = .reset cfg) (b : ∃ cfg, t.b = .reset cfg) (host : t.host = .reset) : t.Coherent := by
  have links : ∀ l, ∃ cfg, t.link l = .reset cfg := fun | .a => a | .b => b
  constructor
  case conflict =>
    intro l
    obtain ⟨cfg, link⟩ := links l
    rw [link]
    exact Link.conflictLaw_of_empty rfl rfl rfl
  case host =>
    rw [host]
    nofun
  case sweep =>
    intro l
    obtain ⟨cfg, link⟩ := links l
    rw [link]
    nofun
  case pending =>
    intro l
    obtain ⟨cfg, link⟩ := links l
    rw [link]
    nofun

/-- Every command keeps the law: a request by its effect, a happening by its act and what every happening ends with. -/
theorem exec (c : Instr) (h : exec c s = .next t) : t.Coherent := by
  cases c with
  | transactionBegin =>
    cases h
    split
    · exact hs.outside rfl rfl rfl rfl
    · exact hs
    · exact hs
  | transactionEnd clocked =>
    cases h
    split
    · exact (hs.endUntaken clocked).outside rfl rfl rfl rfl
    all_goals exact hs.outside rfl rfl rfl rfl
  | hardwareReset =>
    cases h
    exact State.Coherent.of_reset ⟨_, rfl⟩ ⟨_, rfl⟩ rfl
  | resetEnd =>
    cases h
    exact hs.outside rfl rfl rfl rfl
  | memoryCompletion status =>
    simp only [Machine.exec, execMemoryCompletion] at h
    split at h
    · cases h
      exact hs
    · cases h
      split
      · exact hs.withPort none
      · exact (hs.complete _ _).finish
  | hostAccessArrival acc =>
    simp only [Machine.exec, execHostAccessArrival] at h
    exact hs.happening (hs.arrive acc) h
  | arbiterChoice =>
    simp only [Machine.exec, execArbiterChoice] at h
    exact hs.happening hs.arbiterChoice h
  | controlRecordDecision l =>
    simp only [Machine.exec, execControlRecordDecision] at h
    exact hs.happening (hs.decideControl l) h
  | frameBuild l =>
    simp only [Machine.exec, execFrameBuild] at h
    exact hs.happening (hs.frameBuild l) h
  | sweepOpenQueued l =>
    simp only [Machine.exec, execSweepOpenQueued] at h
    exact hs.happening (hs.queueOpen l) h
  | sweepCloseQueued l =>
    simp only [Machine.exec, execSweepCloseQueued] at h
    exact hs.happening (hs.queueClose l) h
  | flushTimerExpiry l =>
    simp only [Machine.exec, execFlushTimerExpiry] at h
    exact hs.happening (hs.quiet rfl) h
  | transmitChoicePoint l =>
    simp only [Machine.exec, execTransmitChoicePoint] at h
    exact hs.happening (hs.modLink (Link.conserves_choicePoint _ _)) h
  | frameEnd l =>
    simp only [Machine.exec, execFrameEnd] at h
    exact hs.happening (hs.endFrame l) h
  | ackTimerExpiry l =>
    simp only [Machine.exec, execAckTimerExpiry] at h
    exact hs.happening (hs.goBack l) h
  | peerHoldLimitExpiry l =>
    simp only [Machine.exec, execPeerHoldLimitExpiry] at h
    exact hs.happening (hs.faultLink l _) h
  | trainingTimerExpiry l =>
    simp only [Machine.exec, execTrainingTimerExpiry] at h
    exact hs.happening (hs.faultLink l _) h
  | symbolArrival l sym =>
    simp only [Machine.exec, execSymbolArrival] at h
    exact hs.happening (hs.receiveSymbol l sym) h
  | silenceTimerExpiry l =>
    simp only [Machine.exec, execSilenceTimerExpiry] at h
    exact hs.happening (hs.silenceExpiry l) h
  | captureHoldExpiry =>
    simp only [Machine.exec, execCaptureHoldExpiry] at h
    exact hs.happening hs.holdExpiry h
  | nop | partInfo | partConfigSet | partConfigGet | windowSet | windowClear | windowGet | linkSet | linkEnable
  | linkDisable | linkGet | flush | sweepStart | sweepAbort | eventPop | eventClear | softReset | badCommand =>
    rw [exec_of_request rfl] at h
    exact hs.take (hs.request _) h

end State.Coherent

/-- Settles O56: the two laws, with the link of each window that is swept, are one law of a state; a step is a command on the
state with the queue's rest, or a tick, and each keeps it. -/
theorem stepKeepsConflictLaws : Obligations.StepKeepsConflictLaws := by
  intro s t _ sweep conflict word h
  have hs := State.coherent_of_laws sweep conflict word
  suffices kept : t.Coherent from ⟨kept.conflictLaw, kept.wordLaw⟩
  unfold step at h
  split at h
  next c rest _ =>
    have queued : ({ s with pending := rest } : State).Coherent := hs.outside rfl rfl rfl rfl
    exact queued.exec c h
  next =>
    cases h
    exact hs.tick

end Sys2Proof.Machine
end

section
/-! STATEMENTS. The markers that a sweep engine queues (R26, R27, R108, R112). -/

namespace Sys2Proof.Machine

/-! ## The link with a marker queued -/

/-- The link with this entry at the tail of its capture queue, the flush timer started where the queue was empty (R27). -/
def Link.appended (e : CaptureEntry) (k : Link) : Link :=
  { k with capture := { k.capture with
      queue := k.capture.queue ++ [e]
      flushTimer := if k.capture.queue = [] then .running k.config.flushTime else k.capture.flushTimer } }

theorem Link.enqueue_eq (k : Link) (e : CaptureEntry) : k.enqueue e = k.appended e := by
  simp only [Link.enqueue, Link.appended, List.isEmpty_iff]

/-- The link with SWEEP_OPEN of this tag queued, its engine READING the window from offset 0 (R108). -/
def Link.openQueued (i : Index) (t : Tag) (k : Link) : Link :=
  { k.appended (.record (.sweepOpen t)) with
    sweep := { k.sweep with active := some { phase := .reading, window := i, next := 0 } } }

/-- The link with SWEEP_CLOSE of this tag queued, its engine IDLE (R112). -/
def Link.closeQueued (t : Tag) (k : Link) : Link :=
  { k.appended (.record (.sweepClose t)) with sweep := { k.sweep with active := none } }

/-! ## The marker of a phase -/

namespace State

variable {s : State} {l : LinkId}

/-- An active engine has a marker to queue in its phase while a slot is free (R26). -/
theorem markerWindow_of {sw : ActiveSweep} {w : Window} (active : (s.link l).sweep.active = some sw)
    (window : s.window sw.window = some w) (slot : (s.link l).capture.queue.length < Config.captureCapacity) :
    s.markerWindow l sw.phase = some (sw.window, w) := by
  simp [markerWindow, active, window, (s.link l).hasSlot_iff.2 slot]

theorem markerWindow_full (full : Config.captureCapacity ≤ (s.link l).capture.queue.length) (phase : SweepPhase) :
    s.markerWindow l phase = none := by
  rcases marker : s.markerWindow l phase with _ | ⟨i, w⟩
  · rfl
  · obtain ⟨_, -, slot, -⟩ := markerWindow_eq_some marker
    exact absurd ((s.link l).hasSlot_iff.1 slot) (Nat.not_lt.2 full)

variable {i : Index} {w : Window}

theorem queueOpen_of (marker : s.markerWindow l .opening = some (i, w)) :
    s.queueOpen l = s.modLink l (Link.openQueued i w.tag) := by
  rw [queueOpen, marker]
  exact modLink_congr (by rw [Link.openQueued, Link.enqueue_eq])

theorem queueOpen_none (marker : s.markerWindow l .opening = none) : s.queueOpen l = s := by rw [queueOpen, marker]

theorem queueClose_of (marker : s.markerWindow l .closing = some (i, w)) (window : s.window i = some w) :
    s.queueClose l = raise { s.modLink l (Link.closeQueued w.tag) with
      windows := s.windows.set i (some (w.withExport .inStep)) } (.windowInStep i .exportSide) := by
  have queued : (s.modLink l fun k => { k.enqueue (.record (.sweepClose w.tag)) with
      sweep := { k.sweep with active := none } }) = s.modLink l (Link.closeQueued w.tag) :=
    modLink_congr (by rw [Link.closeQueued, Link.enqueue_eq])
  have valid : (s.modLink l (Link.closeQueued w.tag)).window i = some w := (s.modLink_window l _ i).trans window
  simp only [queueClose, marker, queued, modWindow_some valid, modLink_windows]

end State

/-- Settles O19: a marker is queued for the window of the engine exactly where a slot is free. -/
theorem sweepMarkersQueued : Obligations.SweepMarkersQueued := by
  intro s l sw w hr active window
  have opens : exec (.sweepOpenQueued l) s = s.happening (s.markerWindow l .opening).isSome (·.queueOpen l) := rfl
  have closes : exec (.sweepCloseQueued l) s = s.happening (s.markerWindow l .closing).isSome (·.queueClose l) := rfl
  rw [opens, closes]
  refine ⟨fun slot => ?_, fun full => ?_⟩
  · have marker := State.markerWindow_of active window slot
    refine ⟨fun opening => ?_, fun closing => ?_⟩
    · rw [opening] at marker
      rw [State.happening_of hr (by rw [marker]; rfl), State.queueOpen_of marker]
      rfl
    · rw [closing] at marker
      rw [State.happening_of hr (by rw [marker]; rfl), State.queueClose_of marker window]
      rfl
  · have waits (phase : SweepPhase) : (s.markerWindow l phase).isSome = false := by rw [State.markerWindow_full full]; rfl
    exact ⟨State.happening_not (waits _) _, State.happening_not (waits _) _⟩

end Sys2Proof.Machine
end

section
/-! STATEMENTS. SWEEP_START and SWEEP_ABORT (R107, R108, R113, R114, R139). -/

namespace Sys2Proof.Machine

/-! ## The table, the host port and the response -/

theorem State.setWindow_window_eq_ite (s : State) (i j : Index) (e : Option Window) :
    (s.setWindow i e).window j = if j = i then e else s.window j := by
  split
  next same => rw [same, State.setWindow_window]
  next other => exact State.setWindow_window_ne s other e

theorem State.withHost_link (s : State) (h : HostPort) (l : LinkId) :
    ({ s with host := h } : State).link l = s.link l := by cases l <;> rfl

theorem State.answered_link (s : State) (out : Option Response) (code : Byte) (st : Status) (d : List Byte)
    (l : LinkId) : (s.answered out code st d).link l = s.link l := by cases l <;> rfl

/-! ## SWEEP_START -/

/-- The link of a window whose sweep starts: SWEEP_OPEN is queued where a slot is free (R107, R108). -/
def Link.sweepStarted (i : Index) (t : Tag) (k : Link) : Link :=
  if k.capture.queue.length < Config.captureCapacity then k.openQueued i t
  else { k with sweep := { k.sweep with active := some { phase := .opening, window := i, next := 0 } } }

namespace State

/-- The checks of Table 7-2 in their order, for a valid window. -/
theorem sweepStart_of {s : State} {index : Byte} {i : Index} {w : Window} (hi : index.toNat = i.val)
    (window : s.window i = some w) : s.sweepStart index =
      if w.direction = .imports ∨ s.linkState w.link ≠ .up then s.refuse 0x0C .wrongState
      else if (s.link w.link).sweep.active.isSome = true ∨ w.exportSide = some .sweeping then s.refuse 0x0C .busy
      else ((s.startSweep i w).respondOk 0x0C).finish := by
  have exports : (!w.direction.hasExport) = true ↔ w.direction = .imports := by cases w.direction <;> decide
  simp only [sweepStart, indexOf_eq_some hi, window, exports, ite_or]

/-- The state that an accepted SWEEP_START leaves, its held write and its response aside. -/
def sweepStarted (s : State) (i : Index) (w : Window) : State :=
  (s.modWindow i (·.withExport .sweeping)).modLink w.link (·.sweepStarted i w.tag)

/-- An accepted SWEEP_START changes the window's side and its link, and then looks at the held write. -/
theorem startSweep_eq {s : State} {i : Index} {w : Window} (window : s.window i = some w) :
    s.startSweep i w = (s.sweepStarted i w).holdBecomesCapturing i := by
  unfold startSweep
  dsimp only
  congr 1
  set started := (s.modWindow i (·.withExport .sweeping)).modLink w.link fun k =>
    { k with sweep := { k.sweep with active := some { phase := .opening, window := i, next := 0 } } } with hstarted
  have active : (started.link w.link).sweep.active = some { phase := .opening, window := i, next := 0 } := by
    simp [hstarted]
  have sweeping : started.window i = some (w.withExport .sweeping) := by simp [hstarted, window]
  have queue : (started.link w.link).capture = (s.link w.link).capture := by simp [hstarted]
  by_cases slot : (s.link w.link).capture.queue.length < Config.captureCapacity
  · rw [queueOpen_of (markerWindow_of active sweeping (by rwa [queue])), hstarted, modLink_modLink]
    exact modLink_congr (by rw [modWindow_link, Link.sweepStarted, if_pos slot]; rfl)
  · rw [queueOpen_none (markerWindow_full (by rw [queue]; exact Nat.not_lt.1 slot) _)]
    exact modLink_congr (by rw [modWindow_link, Link.sweepStarted, if_neg slot])

/-- A plain write to the window that stands in CLAIMING becomes capturing (R107, R139). -/
theorem holdBecomesCapturing_of {s : State} {i : Index} {o : Offset} {w : Window} {d : Word}
    (phase : s.host.phase = .claiming) (plain : s.host.handling = some .plain)
    (target : s.host.classification = some (.window i o)) (window : s.window i = some w)
    (write : s.host.access.map Access.kind = some (.write d)) :
    s.holdBecomesCapturing i = { s with host := { s.host with handling := some .capturing } } := by
  obtain ⟨acc, access, kind⟩ := Option.map_eq_some_iff.1 write
  simp [holdBecomesCapturing, hostTarget, phase, plain, target, window, access, kind]

theorem holdBecomesCapturing_not {s : State} (i : Index) (other : s.host.phase ≠ .claiming ∨
    s.host.handling ≠ some .plain ∨ s.host.access.map Access.kind = some .read) : s.holdBecomesCapturing i = s := by
  unfold holdBecomesCapturing
  dsimp only
  rw [if_neg]
  rintro ⟨phase, plain, write, -⟩
  rcases other with other | other | read
  · exact other phase
  · exact other plain
  · obtain ⟨acc, access, kind⟩ := Option.map_eq_some_iff.1 read
    simp [access, kind] at write

theorem startSweep_answered {s : State} {out : Option Response} {i : Index} {w : Window} (ht : s.Taking out)
    (window : s.window i = some w) : (s.startSweep i w).respondOk 0x0C =
      ({ s.sweepStarted i w with host := ((s.sweepStarted i w).holdBecomesCapturing i).host } : State).answered out 0x0C
        .ok [] := by
  have selected : ((s.sweepStarted i w).holdBecomesCapturing i).spi = .active out false := by
    rw [holdBecomesCapturing_eq]
    exact (modLink_spi _ _ _).trans ht.selected
  calc (s.startSweep i w).respondOk 0x0C
    _ = ((s.sweepStarted i w).holdBecomesCapturing i).answered out 0x0C .ok [] := by
      rw [startSweep_eq window]
      exact respond_of_active selected _ _ _
    _ = _ := congrArg (answered · out 0x0C .ok []) (holdBecomesCapturing_eq _ i)

section
variable (s : State) (i : Index) (w : Window)

theorem sweepStarted_window (window : s.window i = some w) (j : Index) : (s.sweepStarted i w).window j =
    if j = i then some (w.withExport .sweeping) else s.window j := by
  rw [sweepStarted, modLink_window, modWindow, window, setWindow_window_eq_ite]
  rfl

theorem sweepStarted_link : (s.sweepStarted i w).link w.link = (s.link w.link).sweepStarted i w.tag := by
  simp [sweepStarted]

theorem sweepStarted_link_other : (s.sweepStarted i w).link (otherLink w.link) = s.link (otherLink w.link) := by
  simp [sweepStarted]

theorem sweepStarted_host : (s.sweepStarted i w).host = s.host := by simp [sweepStarted]

end

end State

/-- Settles O17: the checks leave the accepted request, whose effect is that on the side and the link of its window and on
the held write. -/
theorem sweepStartChecks : Obligations.SweepStartChecks := by
  intro s out index ht
  have taken : exec (.sweepStart index) s = .next (s.sweepStart index) := State.take_of_taking ht (·.sweepStart index)
  simp only [taken, ← State.refuse_of_taking ht]
  refine ⟨fun hi => ?_, fun i hi => ⟨fun off => ?_, fun w window => ?_⟩⟩
  · rw [State.sweepStart, indexOf_eq_none hi]
  · simp only [State.sweepStart, indexOf_eq_some hi, off]
  rw [State.sweepStart_of hi window]
  refine ⟨fun wrong => by rw [if_pos wrong], fun exports up busy => ?_, fun exports up idle side => ?_⟩
  · rw [if_neg (by simp [exports, up]), if_pos busy]
  · have free : ¬ ((s.link w.link).sweep.active.isSome = true ∨ w.exportSide = some .sweeping) := by
      rcases side with side | side <;> simp [idle, side]
    have started := s.sweepStarted_host i w
    have sweeping : w.withExport .sweeping = { w with exportSide := some .sweeping } := by
      rcases side with side | side <;> simp [Window.withExport, side]
    rw [if_neg (by simp [exports, up]), if_neg free, State.startSweep_answered ht window]
    refine ⟨_, rfl, fun j => ?_, ?_, ?_, fun o d phase plain target write => ?_, fun other => ?_,
      State.modLink_events _ _ _, State.modLink_overflow _ _ _, State.modLink_port _ _ _, State.modLink_config _ _ _,
      rfl, rfl⟩
    · rw [← sweeping]
      exact s.sweepStarted_window i w window j
    · rw [State.answered_link, State.withHost_link, State.sweepStarted_link]
      rfl
    · rw [State.answered_link, State.withHost_link, State.sweepStarted_link_other]
    · have valid : (s.sweepStarted i w).window i = some (w.withExport .sweeping) :=
        (s.sweepStarted_window i w window i).trans (if_pos rfl)
      simp only [State.answered]
      rw [State.holdBecomesCapturing_of (by rwa [started]) (by rwa [started]) (by rwa [started]) valid (by rwa [started]),
        started]
    · simp only [State.answered]
      rw [State.holdBecomesCapturing_not i (by rwa [started]), started]

/-! ## SWEEP_ABORT -/

/-- The abort of an active sweep is what a local cause does to its window, whose side is SWEEPING (R106, R113). -/
theorem State.SweepLaw.abortSweep_lost {s : State} (hs : s.SweepLaw) {l : LinkId} {i : Index} {w : Window} {c : Cause}
    (sweeps : s.Sweeps l i) (window : s.window i = some w) (hc : c ≠ .windowCleared) :
    w.exportSide = some .sweeping ∧ s.ExportLost (s.abortSweep l c) i w c := by
  obtain rfl := hs.link_of_sweeps sweeps window
  have side := (hs.sweeping_iff window).2 sweeps
  have aborts : s.localStale i c = s.abortSweep w.link c := by simp only [State.localStale, window, side]
  exact ⟨side, aborts ▸ State.localStale_lost window hs hc⟩

theorem State.sweepAbort_of {s : State} {index : Byte} {i : Index} {w : Window} (hi : index.toNat = i.val)
    (window : s.window i = some w) : s.sweepAbort index =
      if (s.link w.link).sweep.active.map ActiveSweep.window = some i then
        ((s.abortSweep w.link .command).respondOk 0x0D).finish
      else s.refuse 0x0D .wrongState := by
  have active : ((s.link w.link).sweep.active.any fun sw => decide (sw.window = i)) = true ↔
      (s.link w.link).sweep.active.map ActiveSweep.window = some i := by
    cases (s.link w.link).sweep.active <;> simp
  simp only [State.sweepAbort, indexOf_eq_some hi, window, active]

/-- A change of one link, of the window table and of the event queue, answered as the state before it would be. -/
theorem State.answered_sameButLink (s : State) (l : LinkId) (f : Link → Link) (es : List Event)
    (v : Vector (Option Window) 16) (out : Option Response) (code : Byte) (st : Status) (d : List Byte) :
    (s.answered out code st d).SameButLink
      (({ (s.modLink l f).offered es with windows := v } : State).answered out code st d) l := by
  rw [State.offered_eq]
  constructor
  case other =>
    rw [State.answered_link, State.answered_link, ← s.modLink_link_other l f]
    exact (by cases l <;> rfl)
  all_goals simp [State.answered]

/-- Settles O18: an accepted SWEEP_ABORT is the loss of a SWEEPING side with cause COMMAND, and its response. -/
theorem sweepAbortByCommand : Obligations.SweepAbortByCommand := by
  intro s out index ht hs
  have taken : exec (.sweepAbort index) s = .next (s.sweepAbort index) := State.take_of_taking ht (·.sweepAbort index)
  simp only [taken, ← State.refuse_of_taking ht]
  refine ⟨fun hi => ?_, fun i hi => ⟨fun off => ?_, fun w window => ?_⟩⟩
  · rw [State.sweepAbort, indexOf_eq_none hi]
  · simp only [State.sweepAbort, indexOf_eq_some hi, off]
  rw [State.sweepAbort_of hi window]
  refine ⟨fun idle => by rw [if_neg idle], fun sweeps => ?_⟩
  obtain ⟨side, lost⟩ := hs.abortSweep_lost (c := .command) sweeps window (by decide)
  have selected : (s.abortSweep w.link .command).spi = .active out false := by
    rw [lost.sweeping side]
    exact (State.offered_spi _ _).trans ((s.modLink_spi _ _).trans ht.selected)
  rw [if_pos sweeps, State.respondOk, State.respond_of_active selected, lost.sweeping side]
  have offered (f : Link → Link) := State.offered_congr [.sweepAborted i .command] (s := s.modLink w.link f) (t := s)
    (State.modLink_events _ _ _) (State.modLink_overflow _ _ _)
  refine ⟨_, rfl, State.answered_sameButLink .., fun j => s.setWindow_window_eq_ite i j _, ?_, (offered _).1,
    (offered _).2⟩
  rw [State.answered_link, State.withWindows_link, State.offered_link, State.modLink_link]

end Sys2Proof.Machine
end

section
/-! STATEMENTS. The sweep read at the memory port: its grant and its completion (R110, R111, R115 to R117). -/

namespace Sys2Proof.Machine

/-! ## The grant (R110) -/

/-- The table after a capture of the word: its entry loses its frame number, or one without a number is made (R93). -/
def ConflictUnit.capturedTable (c : ConflictUnit) (t : Tag) (o : Offset) : List PendingWrite :=
  if c.table.any fun e => decide (e.tag = t ∧ e.offset = o) then
    c.table.map fun e => if e.tag = t ∧ e.offset = o then { e with frame := none } else e
  else c.table ++ [{ tag := t, offset := o, frame := none }]

theorem ConflictUnit.capture_eq (c : ConflictUnit) (t : Tag) (o : Offset) :
    c.capture t o = { c with table := c.capturedTable t o } := by
  simp only [ConflictUnit.capture, ConflictUnit.capturedTable, ConflictUnit.hasEntry, PendingWrite.isFor, Bool.and_eq_true,
    decide_eq_true_eq, Bool.decide_and]
  split <;> rfl

theorem Link.noted_conflict (k : Link) (w : Window) (o : Offset) : (k.noted w o).conflict =
    if w.direction = .shared ∧ (k.control.rank = .unknown ∨ k.control.rank = .senior) then
      { k.conflict with table := k.conflict.capturedTable w.tag o }
    else k.conflict := by
  simp only [Link.noted, Window.isShared_iff, ← ConflictUnit.capture_eq]
  split <;> rfl

namespace State

theorem arbiterChoice_sweep {s : State} {l : LinkId} (free : s.port = none) (choice : s.choose = some (.sweep l)) :
    s.arbiterChoice = s.grantSweep l := by
  rw [arbiterChoice_eq, arbitrate]
  simp [free, choice]

theorem grantSweep_of {s : State} {l : LinkId} {i : Index} {w : Window} {o : Offset}
    (claim : s.sweepClaim l = some (i, w, o)) : s.grantSweep l =
      { s.modLink l (Link.readGranted w o) with
        port := some { owner := .sweep l, kind := .read, addr := w.addrOf o, mask := 15 }
        sweepPointer := otherLink l } := by
  simp only [grantSweep, claim, capturePlaceholder, noteCapture, modLink_modLink]
  rfl

end State

/-- Settles O34: the claim chosen is granted, and the grant changes its link, the port and the pointer. -/
theorem sweepGrant : Obligations.SweepGrant := by
  intro s l i w o hr free choice claim
  rw [exec_arbiterChoice_of hr free choice, State.arbiterChoice_sweep free choice, State.grantSweep_of claim]
  simp only [funext fun k => Link.readGranted_eq k w o, Link.enqueue_eq, Link.noted_conflict]
  rfl

/-! ## The placeholder of a read (R25, R95) -/

/-- A queue with at most one placeholder has none on either side of it (R19). -/
theorem placeholders_apart {pre post : List CaptureEntry} {t : Tag} {o : Offset}
    (one : ((pre ++ .placeholder t o :: post).filter CaptureEntry.isPlaceholder).length ≤ 1) :
    (∀ e ∈ pre, e.isPlaceholder = false) ∧ ∀ e ∈ post, e.isPlaceholder = false := by
  rw [List.filter_append, List.filter_cons_of_pos rfl, List.length_append, List.length_cons] at one
  have before : pre.filter CaptureEntry.isPlaceholder = [] := List.length_eq_zero_iff.1 (by omega)
  have after : post.filter CaptureEntry.isPlaceholder = [] := List.length_eq_zero_iff.1 (by omega)
  simpa [List.filter_eq_nil_iff] using And.intro before after

/-- The settling of an unfilled placeholder's entry, in the terms of the statements (R95). -/
theorem Link.unfilled_settledTable (k : Link) (t : Tag) (o : Offset) (queue : List CaptureEntry) :
    (if k.control.rank = .senior then k.conflict.unfilled t o (k.tx.nextSend - 1) queue else k.conflict) =
      { k.conflict with table := k.settledTable t o queue } := by
  by_cases senior : k.control.rank = .senior
  · cases later : queue.any (·.isWriteOf t o) <;>
      simp [ConflictUnit.unfilled, Link.settledTable, PendingWrite.isFor, senior, later, and_assoc]
  · simp [Link.settledTable, senior]

namespace Link

variable {k : Link}

/-- The removal of the one placeholder: its slot goes, an emptied queue stops the flush timer, and its pending entry is
settled. -/
theorem dropPlaceholder_split {pre post : List CaptureEntry} {t : Tag} {o : Offset}
    (queue : k.capture.queue = pre ++ .placeholder t o :: post) (before : ∀ e ∈ pre, e.isPlaceholder = false)
    (after : ∀ e ∈ post, e.isPlaceholder = false) : k.dropPlaceholder = { k with
      capture := { k.capture with
        queue := pre ++ post
        flushTimer := if pre ++ post = [] then .stopped else k.capture.flushTimer }
      conflict := { k.conflict with table := k.settledTable t o (pre ++ post) } } := by
  have kept (q : List CaptureEntry) (complete : ∀ e ∈ q, e.isPlaceholder = false) :
      q.filter (fun e => !e.isPlaceholder) = q := List.filter_eq_self.2 fun e he => by rw [complete e he]; rfl
  have left : k.capture.queue.filter (fun e => !e.isPlaceholder) = pre ++ post := by
    rw [queue, List.filter_append, List.filter_cons_of_neg (by simp [CaptureEntry.isPlaceholder]), kept pre before,
      kept post after]
  have word : placeholderWord k.capture.queue = some (t, o) := by rw [queue, placeholderWord_split pre t o post before]
  simp only [dropPlaceholder, word, left, List.isEmpty_iff, Link.unfilled_settledTable]

theorem dropPlaceholder_none (complete : ∀ e ∈ k.capture.queue, e.isPlaceholder = false) : k.dropPlaceholder = k := by
  rw [dropPlaceholder, placeholderWord_none _ complete]

end Link

/-! ## The completion (R111, R115 to R117) -/

theorem Link.readDone_of_none {k : Link} (read : k.sweep.read = .none) : k.readDone = k := by rw [Link.readDone, ← read]

/-- The sweep that an engine READING a window goes on with after the word at `o`: the next word, or CLOSING after the last
(R111). -/
def ActiveSweep.afterWord (i : Index) (w : Window) (o : Offset) : ActiveSweep :=
  if 4 * (o.toNat + 1) < w.size then { phase := .reading, window := i, next := o + 1 }
  else { phase := .closing, window := i, next := o }

namespace State

section
variable {s : State} {l : LinkId}

theorem completeSweep_none (read : (s.link l).sweep.read = .none) (status : MemStatus) : s.completeSweep l status = s := by
  simp only [completeSweep, read]
  exact (modLink_congr (Link.readDone_of_none read)).trans (s.modLink_id l)

theorem completeSweep_orphan (read : (s.link l).sweep.read = .orphan) (status : MemStatus) :
    s.completeSweep l status = s.modLink l fun k => k.readDone.dropPlaceholder := by
  simp only [completeSweep, read, removePlaceholder_eq, modLink_modLink]
  rfl

theorem completeSweep_fault {sw : ActiveSweep} (read : (s.link l).sweep.read = .current)
    (active : (s.link l).sweep.active = some sw) : s.completeSweep l .fault =
      (s.modLink l fun k => k.readDone.dropPlaceholder).abortSweep l .memoryFault := by
  simp only [completeSweep, read, modLink_link, active, removePlaceholder_eq, modLink_modLink]
  rfl

/-- A current read that ended OK fills its placeholder, and its engine goes on (R25, R111). -/
theorem completeSweep_ok {i : Index} {o : Offset} {w : Window} (read : (s.link l).sweep.read = .current)
    (active : (s.link l).sweep.active = some { phase := .reading, window := i, next := o }) (window : s.window i = some w)
    (d : Word) : s.completeSweep l (.ok d) = s.modLink l fun k => { k with
      capture := { k.capture with queue := fillPlaceholder (decide (w.coalesce = some true)) d k.capture.queue }
      sweep := { read := .none, active := some (.afterWord i w o) } } := by
  simp only [completeSweep, read, modLink_link, active, modLink_window, window, sweepReadOk, fillRead, modLink_modLink,
    ActiveSweep.afterWord, ← Nat.not_le, Window.words_le_iff]

end

end State

/-- The completion of a sweep read: the port is free, the read's effect, the room test, the new choice (R147). -/
theorem exec_memoryCompletion_sweep {s : State} {p : PortTransaction} {l : LinkId} (hr : s.inReset = false)
    (port : s.port = some p) (owner : p.owner = .sweep l) (status : MemStatus) :
    exec (.memoryCompletion status) s =
      .next (({ s with port := none } : State).completeSweep l status).roomTest.arbiterChoice.finish := by
  simp only [exec, execMemoryCompletion, port, hr, State.complete, State.completeOwner, owner, Bool.false_eq_true, if_false]

/-- Settles O38: one case for each mark of the read, and for a current one each status; the one placeholder of the queue is
filled or removed, and a FAULT is the loss of the SWEEPING side. -/
theorem sweepReadCompletes : Obligations.SweepReadCompletes := by
  intro s p l hr port owner placeholders sweeps free removed
  have completes {status : MemStatus} {u : State} (h : free.completeSweep l status = u) :
      exec (.memoryCompletion status) s = .next u.roomTest.arbiterChoice.finish := by
    rw [exec_memoryCompletion_sweep hr port owner, h]
  have link : free.link l = s.link l := s.withPort_link none l
  have one := placeholders.atMostOne l
  rw [← link] at one ⊢
  have removal {pre t o post} (queue : (free.link l).capture.queue = pre ++ .placeholder t o :: post) :
      (free.modLink l fun k => k.readDone.dropPlaceholder) = removed pre post t o := by
    obtain ⟨before, after⟩ := placeholders_apart (queue ▸ one)
    exact State.modLink_congr (Link.dropPlaceholder_split (k := (free.link l).readDone) queue before after)
  refine ⟨fun status read => completes (State.completeSweep_none read status),
    fun status read => ⟨fun pre t o post queue => completes ?_, fun complete => completes ?_⟩,
    fun i o w pre t o' post read active window queue => ⟨fun d => completes ?_, ?_⟩⟩
  · rw [State.completeSweep_orphan read, removal queue]
  · rw [State.completeSweep_orphan read]
    exact State.modLink_congr (Link.dropPlaceholder_none complete)
  · obtain ⟨before, -⟩ := placeholders_apart (queue ▸ one)
    rw [State.completeSweep_ok read active window d]
    apply State.modLink_congr
    simp only [queue, fillPlaceholder_split _ _ _ _ _ _ before, decide_eq_true_eq, ActiveSweep.afterWord]
  · have law : (removed pre post t o').SweepLaw :=
      (sweeps.congr (t := free) rfl fun _ => s.withPort_link _ _).modLink rfl .inl
    have sweeping : (removed pre post t o').Sweeps l i := by rw [State.Sweeps, State.modLink_link, active]; rfl
    obtain ⟨-, lost⟩ :=
      law.abortSweep_lost (c := .memoryFault) sweeping ((State.modLink_window _ _ _ _).trans window) (by decide)
    exact ⟨_, completes (by rw [State.completeSweep_fault read active, removal queue]), lost⟩

end Sys2Proof.Machine
end

section
/-! STATEMENTS. LINK_SET and LINK_ENABLE (R119 to R122, R131). -/

namespace Sys2Proof.Machine

/-! ## Coded fields of LINK_SET -/

theorem toByte_of_modeOf {b : Byte} {m : LinkMode} (h : modeOf b = some m) : m.toByte = b := by
  unfold modeOf at h
  split at h <;> cases h <;> exact BitVec.eq_of_toNat_eq (by simp [LinkMode.toByte, *])

theorem modeOf_isSome {b : Byte} : (modeOf b).isSome = true ↔ b.toNat ≤ 1 := by
  unfold modeOf
  split <;> simp_all
  omega

theorem toByte_of_lineRateOf {b : Byte} {r : LineRate} (h : lineRateOf b = some r) : r.toByte = b := by
  unfold lineRateOf at h
  split at h <;> cases h <;> exact BitVec.eq_of_toNat_eq (by simp [LineRate.toByte, *])

theorem lineRateOf_isSome {b : Byte} : (lineRateOf b).isSome = true ↔ b.toNat ≤ 2 := by
  unfold lineRateOf
  split <;> simp_all
  omega

theorem toByte_of_frameClassOf {b : Byte} {c : FrameClass} (h : frameClassOf b = some c) : c.toByte = b := by
  unfold frameClassOf at h
  split at h <;> cases h <;> exact BitVec.eq_of_toNat_eq (by simp [FrameClass.toByte, FrameClass.items, byteOf, *])

theorem FrameClass.toByte_cases (c : FrameClass) : c.toByte = 8 ∨ c.toByte = 16 := by cases c <;> decide

theorem numberIn_eq_some {lo hi n m : Nat} : numberIn lo hi n = some m ↔ (lo ≤ n ∧ n ≤ hi) ∧ n = m := by
  simp [numberIn]

/-! ## The configuration that LINK_SET gives -/

/-- A configuration is given by legal fields, and holds them (R119, Table 8-3). -/
theorem linkConfigOf_gives {f : LinkFields} {c : LinkConfig} (h : linkConfigOf f = some c) : f.Legal ∧ f.Gives c := by
  simp only [linkConfigOf, Option.bind_eq_bind, Option.bind_eq_some_iff, numberIn_eq_some] at h
  obtain ⟨m, mode, r, rate, fc, cls, _, ⟨limit, rfl⟩, _, ⟨flush, rfl⟩, _, ⟨ack, rfl⟩, _, ⟨retry, rfl⟩, _, ⟨silence, rfl⟩,
    _, ⟨training, rfl⟩, _, ⟨mark, rfl⟩, _, ⟨hold, rfl⟩, given⟩ := h
  obtain rfl := Option.some.inj given
  have cls := toByte_of_frameClassOf cls
  exact ⟨⟨modeOf_isSome.1 (by rw [mode]; rfl), lineRateOf_isSome.1 (by rw [rate]; rfl), cls ▸ fc.toByte_cases, limit, flush,
      ack, retry, silence.1, training.1, mark, hold.1⟩,
    ⟨toByte_of_modeOf mode, toByte_of_lineRateOf rate, cls, rfl, rfl, rfl, rfl, rfl, rfl, rfl, rfl⟩⟩

/-- Legal fields give a configuration. -/
theorem linkConfigOf_of_legal {f : LinkFields} (h : f.Legal) : ∃ c, linkConfigOf f = some c := by
  obtain ⟨m, mode⟩ := Option.isSome_iff_exists.1 (modeOf_isSome.2 h.mode)
  obtain ⟨r, rate⟩ := Option.isSome_iff_exists.1 (lineRateOf_isSome.2 h.lineRate)
  obtain ⟨fc, cls⟩ : ∃ fc, frameClassOf f.frameClass = some fc := by
    rcases h.frameClass with h | h <;> rw [h] <;> exact ⟨_, rfl⟩
  have byte (b : Byte) : b.toNat ≤ 255 := Nat.lt_succ_iff.1 b.isLt
  exact ⟨_, by
    simp only [linkConfigOf, mode, rate, cls, numberIn, if_pos h.inFlightLimit, if_pos h.flushTime, if_pos h.ackTimeout,
      if_pos h.retryLimit, if_pos (And.intro h.silenceLimit (byte _)), if_pos (And.intro h.trainingTimeout (byte _)),
      if_pos h.holdMark, if_pos (And.intro h.peerHoldLimit (byte _))]
    rfl⟩

theorem linkConfigOf_eq_none {f : LinkFields} (h : ¬ f.Legal) : linkConfigOf f = none :=
  Option.eq_none_iff_forall_ne_some.2 fun _ given => h (linkConfigOf_gives given).1

/-! ## LINK_SET -/

/-- A response after a change that left the management port as it was. -/
theorem State.Taking.respondOk {s t : State} {out : Option Response} (ht : s.Taking out) (spi : t.spi = s.spi)
    (code : Byte) : t.respondOk code = t.answered out code .ok [] :=
  State.respond_of_active (spi.trans ht.selected) _ _ _

/-- A link that carries no frame takes a configuration: the hold flag follows the new mark, and no timer does (R79, R120). -/
theorem Link.configure_of_idle {k : Link} (idle : k.control.state.carrying = false) (c : LinkConfig) :
    k.configure c = { k with
      config := c
      apply := { k.apply with
        holdFlag := if c.holdMark ≤ k.apply.queue.length then true
          else if k.apply.queue.length ≤ c.holdMark / 2 then false else k.apply.holdFlag } } := by
  have timer := Link.loopTimer_of_idle (k := { k with config := c }) idle
  rw [Link.configure, Link.evalHold_eq, timer]
  rfl

theorem LinkState.carrying_eq_false {x : LinkState} (h : x.running = false) : x.carrying = false :=
  LinkState.carrying_of_not_running (Bool.eq_false_iff.1 h)

theorem State.linkSet_running {s : State} {l : LinkId} (running : (s.linkState l).running = true) (f : LinkFields) :
    s.linkSet (linkByte l) f = s.refuse 0x07 .linkNotDisabled := by
  simp only [State.linkSet, linkOf_linkByte, if_pos running]

section
variable {s : State} {l : LinkId} {f : LinkFields} (stopped : (s.linkState l).running = false)
include stopped

theorem State.linkSet_illegal (illegal : linkConfigOf f = none) :
    s.linkSet (linkByte l) f = s.refuse 0x07 .badField := by
  simp only [State.linkSet, linkOf_linkByte, if_neg (Bool.eq_false_iff.1 stopped), illegal]

theorem State.linkSet_legal {c : LinkConfig} (legal : linkConfigOf f = some c) :
    s.linkSet (linkByte l) f = (s.modLink l (·.configure c)).respondOk 0x07 := by
  simp only [State.linkSet, linkOf_linkByte, if_neg (Bool.eq_false_iff.1 stopped), legal]

end

/-- Settles O10: legal fields are those that give a configuration, and the link that takes it carries no frame. -/
theorem linkSetChecks : Obligations.LinkSetChecks := by
  intro s out link f ht
  have taken : exec (.linkSet link f) s = .next (s.linkSet link f) := State.take_of_taking ht (·.linkSet link f)
  simp only [taken, ← State.refuse_of_taking ht]
  refine ⟨fun other => by rw [State.linkSet, linkOf_eq_none other], ?_⟩
  rintro l rfl
  refine ⟨fun running => by rw [State.linkSet_running running], fun stopped => ⟨fun illegal => ?_, fun legal => ?_⟩⟩
  · rw [State.linkSet_illegal stopped (linkConfigOf_eq_none illegal)]
  · obtain ⟨c, given⟩ := linkConfigOf_of_legal legal
    have configured := Link.configure_of_idle (LinkState.carrying_eq_false stopped) c
    refine ⟨c, (linkConfigOf_gives given).2, congrArg _ ?_⟩
    rw [State.linkSet_legal stopped given, ht.respondOk (State.modLink_spi _ _ _)]
    exact congrArg (State.answered · out 0x07 .ok []) (State.modLink_congr configured)

/-! ## LINK_ENABLE -/

theorem State.linkEnable_running {s : State} {l : LinkId} (running : (s.linkState l).running = true) :
    s.linkEnable (linkByte l) = s.refuse 0x08 .wrongState := by
  simp only [State.linkEnable, linkOf_linkByte, if_pos running]

section
variable {s : State} {l : LinkId} (stopped : (s.linkState l).running = false)
include stopped

theorem State.linkEnable_unnamed (unnamed : s.config.nodeId = 0) :
    s.linkEnable (linkByte l) = s.refuse 0x08 .noNodeId := by
  simp only [State.linkEnable, linkOf_linkByte, if_neg (Bool.eq_false_iff.1 stopped), if_pos unnamed]

theorem State.linkEnable_normal (named : s.config.nodeId ≠ 0) (normal : (s.link l).config.mode = .normal) :
    s.linkEnable (linkByte l) = ((s.enterHunting l).respondOk 0x08).finish := by
  simp only [State.linkEnable, linkOf_linkByte, if_neg (Bool.eq_false_iff.1 stopped), if_neg named, normal]

theorem State.linkEnable_loop (named : s.config.nodeId ≠ 0) (loop : (s.link l).config.mode = .loop) :
    s.linkEnable (linkByte l) = ((s.enterUpLoop l).respondOk 0x08).finish := by
  simp only [State.linkEnable, linkOf_linkByte, if_neg (Bool.eq_false_iff.1 stopped), if_neg named, loop]

end

theorem exec_linkEnable_of {s : State} {out : Option Response} (ht : s.Taking out) (link : Byte) :
    exec (.linkEnable link) s = .next (s.linkEnable link) := State.take_of_taking ht (·.linkEnable link)

/-- Settles O11: in NORMAL mode what the three checks leave is the entry to HUNTING. -/
theorem linkEnableHunts : Obligations.LinkEnableHunts := by
  intro s out link ht
  simp only [exec_linkEnable_of ht, ← State.refuse_of_taking ht]
  refine ⟨fun other => by rw [State.linkEnable, linkOf_eq_none other], ?_⟩
  rintro l rfl
  refine ⟨fun running => ?_, fun stopped unnamed => ?_, fun stopped named normal => ?_⟩
  · rw [State.linkEnable_running running]
  · rw [State.linkEnable_unnamed stopped unnamed]
  · have spi : (s.enterHunting l).spi = s.spi := State.modLink_spi _ _ _
    rw [State.linkEnable_normal stopped named normal, ht.respondOk spi]
    rfl

/-- Settles O12: in LOOP mode it is the entry to UP at rank SELF. -/
theorem linkEnableLoops : Obligations.LinkEnableLoops := by
  intro s out l ht stopped named loop
  have spi : (s.enterUpLoop l).spi = s.spi := (State.raise_spi _ _).trans (State.modLink_spi _ _ _)
  rw [exec_linkEnable_of ht, State.linkEnable_loop stopped named loop, ht.respondOk spi]
  rfl

end Sys2Proof.Machine
end

section
/-! STATEMENTS. Training (R122 to R125), and the two timers whose expiry faults a link (R55, R122). -/

namespace Sys2Proof.Machine

/-! ## Expiries that fault the link -/

theorem LinkState.trains_iff (x : LinkState) : x.trains = true ↔ (x = .hunting ∨ x = .training) := by
  cases x <;> simp [LinkState.trains]

theorem LinkState.running_of_trains {x : LinkState} (h : x = .hunting ∨ x = .training) : x.running = true := by
  rcases h with h | h <;> rw [h] <;> rfl

theorem exec_trainingTimerExpiry (s : State) (l : LinkId) : exec (.trainingTimerExpiry l) s =
    s.happening ((s.linkState l).trains && (s.link l).control.trainingTimer.hasRunOut) (·.faultLink l .trainTimeout) := rfl

theorem exec_peerHoldLimitExpiry (s : State) (l : LinkId) : exec (.peerHoldLimitExpiry l) s =
    s.happening ((s.linkState l).carrying && (s.link l).control.peerHoldTimer.hasRunOut)
      (·.faultLink l .holdExpired) := rfl

/-- A running link is faulted as it stands. -/
theorem State.faultLink_wentDown_self {s : State} {l : LinkId} (hs : s.SweepLaw)
    (running : (s.linkState l).running = true) (r : FaultReason) : s.WentDown (s.faultLink l r) l (some r) := by
  rw [State.faultLink_running running]
  exact State.enterDown_wentDown hs l (some r)

/-- Settles O16: each expiry happens in the states its timer limits, once the timer has run out. -/
theorem linkTimerExpiryFaults : Obligations.LinkTimerExpiryFaults := by
  intro s l hr hs
  refine ⟨fun state out => ?_, fun state out => ?_, fun left => ?_, fun left => ?_⟩
  · have occurs : ((s.linkState l).trains && (s.link l).control.trainingTimer.hasRunOut) = true := by
      rw [(LinkState.trains_iff _).2 state, (Timer.hasRunOut_iff _).2 out]
      rfl
    exact ⟨_, (exec_trainingTimerExpiry s l).trans (State.happening_of hr occurs _),
      State.faultLink_wentDown_self hs (LinkState.running_of_trains state) _⟩
  · have occurs : ((s.linkState l).carrying && (s.link l).control.peerHoldTimer.hasRunOut) = true := by
      rw [(LinkState.carrying_iff _).2 state, (Timer.hasRunOut_iff _).2 out]
      rfl
    exact ⟨_, (exec_peerHoldLimitExpiry s l).trans (State.happening_of hr occurs _),
      State.faultLink_wentDown_self hs (LinkState.running_of_carrying state) _⟩
  · rw [exec_trainingTimerExpiry, State.happening_not_runOut left]
  · rw [exec_peerHoldLimitExpiry, State.happening_not_runOut left]

/-! ## Entry to UP (R125) -/

theorem effectiveClassOf_eq (own peer : FrameClass) :
    effectiveClassOf own peer = if own = .sixteen ∧ peer = .sixteen then .sixteen else .eight := by
  cases own <;> cases peer <;> rfl

/-- The link with this peer recorded (R124). -/
def Link.recorded (p : Peer) (k : Link) : Link := { k with control := { k.control with peer := some p } }

/-- The rank of a link that comes up with this peer, and the reading of the senior rank (R91). -/
theorem rank_of_ids (peer own : Byte) : ∃ rank : Rank, rank = (if peer.toNat < own.toNat then .senior else .junior) ∧
    (rank = .senior ↔ peer.toNat < own.toNat) ∧ (rank = .senior ∨ rank = .junior) := by
  by_cases lower : peer.toNat < own.toNat
  · exact ⟨.senior, by simp [lower], by simp [lower], .inl rfl⟩
  · exact ⟨.junior, by simp [lower], by simp [lower], .inr rfl⟩

/-- A link whose peer hold is clear comes up with the peer it has recorded. -/
theorem State.enterUp_cameUp {s : State} {l : LinkId} (unheld : (s.link l).tx.peerHold = false) (p : Peer) (hold : Bool) :
    s.CameUp ((s.modLink l (·.recorded p)).enterUp l p hold) l p hold := by
  obtain ⟨rank, rank_eq, senior, known⟩ := rank_of_ids p.id s.config.nodeId
  have junior : (rank = .junior ∨ rank = .self) ↔ rank = .junior := by
    rcases known with h | h <;> simp [h]
  have timer : (if hold = true then Timer.stopped.pause else Timer.stopped.resume) = .stopped := ite_self _
  refine ⟨rank, senior, known, ?_⟩
  simp only [State.enterUp, State.modLink_config, State.modLink_modLink, ← rank_eq]
  refine congrArg (State.raise · _) (State.modLink_congr ?_)
  simp only [Link.recorded, Link.startUp, Link.setPeerHold, followHold_eq, unheld, timer, effectiveClassOf_eq, junior]
  cases hold <;> rfl

/-! ## Symbols in TRAINING (R124, Table 4-2) -/

section
variable {s : State} {l : LinkId} (hr : s.inReset = false) (normal : (s.link l).config.mode = .normal)
  (training : s.linkState l = .training) (aligned : (s.link l).rx.alignment = .aligned)
include hr normal training aligned

/-- A well-formed symbol at an ALIGNED receiver of a TRAINING link, the silence timer restarted. -/
theorem exec_symbolArrival_training {sym : Symbol} (wellFormed : decodeSymbol sym ≠ .malformed) :
    exec (.symbolArrival l sym) s = .next ((s.modLink l Link.timed).symbolInTraining l (decodeSymbol sym)).finish := by
  have examines : (s.link l).examines = true :=
    (Link.examines_iff _).2 ⟨normal, LinkState.running_of_trains (.inr training)⟩
  have still : (s.modLink l Link.timed).linkState l = .training := (State.modLink_linkState _ _ _).trans training
  rw [exec_symbolArrival_of hr examines, State.receiveSymbol_aligned aligned wellFormed, State.alignedSymbol, still]

theorem exec_hello_training (id : Byte) (class16 seenYou : Bool) :
    exec (.symbolArrival l (helloSymbol id class16 seenYou)) s =
      .next ((s.modLink l Link.timed).helloInTraining l id class16 seenYou).finish := by
  rw [exec_symbolArrival_training hr normal training aligned (by simp [decodeSymbol_helloSymbol]),
    decodeSymbol_helloSymbol, State.symbolInTraining]

theorem exec_idle_training (ack next : Seq) (hold : Bool) :
    exec (.symbolArrival l (idleSymbol ack next hold)) s =
      .next ((s.modLink l Link.timed).idleInTraining l hold).finish := by
  rw [exec_symbolArrival_training hr normal training aligned (by simp [decodeSymbol_idleSymbol]),
    decodeSymbol_idleSymbol, State.symbolInTraining]

end

section
variable {s : State} {l : LinkId} {id : Byte}

theorem State.helloInTraining_clash (clash : id = 0 ∨ id = 255 ∨ id = s.config.nodeId) (class16 seenYou : Bool) :
    s.helloInTraining l id class16 seenYou = s.faultLink l .idClash := if_pos clash

theorem State.helloInTraining_recorded (notZero : id ≠ 0) (notOnes : id ≠ 255)
    (notOwn : id ≠ s.config.nodeId) (class16 seenYou : Bool) :
    let p : Peer := { id, acceptance := if class16 = true then .sixteen else .eight }
    s.helloInTraining l id class16 seenYou =
      if seenYou then (s.modLink l (·.recorded p)).enterUp l p false else s.modLink l (·.recorded p) :=
  if_neg (by rintro (h | h | h) <;> contradiction)

theorem State.idleInTraining_none (unknown : (s.link l).control.peer = none) (hold : Bool) :
    s.idleInTraining l hold = s := by
  simp only [State.idleInTraining, unknown]

theorem State.idleInTraining_some {p : Peer} (known : (s.link l).control.peer = some p) (hold : Bool) :
    s.idleInTraining l hold = (s.modLink l (·.recorded p)).enterUp l p hold := by
  have recorded : s.modLink l (·.recorded p) = s := State.modLink_eq_self (by rw [Link.recorded, ← known])
  simp only [State.idleInTraining, known, recorded]

end

/-- Settles O48: each kind of symbol that Table 4-2 gives an effect in TRAINING, the link's peer hold being clear. -/
theorem trainingBringsLinkUp : Obligations.TrainingBringsLinkUp := by
  intro s l hr normal training aligned timers hs timed
  have config : (s.modLink l Link.timed).config = s.config := State.modLink_config _ _ _
  have peer : ((s.modLink l Link.timed).link l).control.peer = (s.link l).control.peer := by
    rw [State.modLink_link]
    rfl
  have unheld : ((s.modLink l Link.timed).link l).tx.peerHold = false := by
    have law : (s.link l).AckTimerLaw := by
      cases l
      · exact timers.a
      · exact timers.b
    have idle : (s.link l).control.state.carrying = false := by rw [← State.linkState, training]; rfl
    rw [State.modLink_link]
    exact (law.noHold idle).1
  refine ⟨fun id class16 seenYou => ?_, fun ack nextSend hold => ?_, fun sym wellFormed notIdle notHello => ?_⟩
  · intro p
    rw [exec_hello_training hr normal training aligned]
    refine ⟨fun clash => ?_, fun notZero notOnes notOwn => ?_⟩
    · rw [State.helloInTraining_clash (by rwa [config])]
      have line : (s.link l).LineChange Link.timed := rfl
      exact ⟨_, rfl, State.faultLink_wentDown hs (LinkState.running_of_trains (.inr training)) line _⟩
    · rw [State.helloInTraining_recorded notZero notOnes (by rwa [config])]
      refine ⟨fun unseen => ?_, fun seen => ?_⟩
      · rw [if_neg (by simp [unseen])]
        rfl
      · rw [if_pos seen]
        exact ⟨_, rfl, State.enterUp_cameUp unheld _ _⟩
  · rw [exec_idle_training hr normal training aligned]
    refine ⟨fun unknown => ?_, fun p known => ?_⟩
    · rw [State.idleInTraining_none (peer.trans unknown)]
      rfl
    · rw [State.idleInTraining_some (peer.trans known)]
      exact ⟨_, rfl, State.enterUp_cameUp unheld _ _⟩
  · rw [exec_symbolArrival_training hr normal training aligned wellFormed]
    cases kind : decodeSymbol sym with
    | idle a n h => exact absurd kind (notIdle a n h)
    | hello i c y => exact absurd kind (notHello i c y)
    | frameStart | data | nak | malformed => rfl

end Sys2Proof.Machine
end

section
/-! STATEMENTS. LINK_DISABLE (R127, R128): a link that leaves UP into DRAINING, and one that goes down. -/

namespace Sys2Proof.Machine

/-! ## The sweep of a link that has left UP (R113) -/

/-- The link with no sweep active; the current read of one that was becomes orphan. -/
def Link.sweepHalted (k : Link) : Link :=
  { k with sweep :=
    { active := none, read := if k.sweep.active.isSome ∧ k.sweep.read = .current then .orphan else k.sweep.read } }

theorem Link.sweepHalted_idle {k : Link} (idle : k.sweep.active = none) : k.sweepHalted = k := by
  rcases k with ⟨_, _, _, _, _, _, _, ⟨active, read⟩, _⟩
  obtain rfl : active = none := idle
  simp [Link.sweepHalted]

theorem Link.sweepHalted_active {k : Link} {sw : ActiveSweep} (active : k.sweep.active = some sw) :
    k.sweepHalted = k.stopSweep := by
  simp [Link.sweepHalted, Link.stopSweep, active]

section
variable {s : State} {l : LinkId}

theorem State.abortSweep_none (idle : (s.link l).sweep.active = none) (c : Cause) : s.abortSweep l c = s := by
  simp only [State.abortSweep, idle]

/-- No notice is owed for the window. -/
theorem State.abortSweep_leftUp {sw : ActiveSweep} (active : (s.link l).sweep.active = some sw)
    (left : s.linkState l ≠ .up) : s.abortSweep l .linkLeftUp =
      ((s.modLink l Link.stopSweep).modWindow sw.window (·.withExport .stale)).raise
        (.sweepAborted sw.window .linkLeftUp) := by
  have state : (((s.modLink l Link.stopSweep).modWindow sw.window (·.withExport .stale)).raise
      (.sweepAborted sw.window .linkLeftUp)).linkState l ≠ .up := by
    rw [State.raise_linkState, State.modWindow_linkState, State.modLink_linkState]
    exact left
  simp only [State.abortSweep, active]
  rw [if_neg (by decide)]
  exact if_neg state

/-- The abort in full: the engine of the link, the side of the window it swept, and SWEEP_ABORTED. -/
theorem State.abortSweep_leftUp_eq (left : s.linkState l ≠ .up) :
    ∃ v, s.abortSweep l .linkLeftUp = { ((s.modLink l Link.sweepHalted).offered
        ((s.link l).sweep.active.map fun sw => Event.sweepAborted sw.window .linkLeftUp).toList) with windows := v } ∧
      ∀ i, ({ s with windows := v } : State).window i = (s.window i).map fun w =>
        if (s.link l).sweep.active.map ActiveSweep.window = some i then w.withExport .stale else w := by
  cases active : (s.link l).sweep.active with
  | none =>
    refine ⟨s.windows, ?_, fun i => by simp [State.window]⟩
    rw [State.abortSweep_none active, State.modLink_eq_self (Link.sweepHalted_idle active)]
    rfl
  | some sw =>
    refine ⟨(s.modWindow sw.window (·.withExport .stale)).windows, ?_, fun i => ?_⟩
    · rw [State.abortSweep_leftUp active left, State.modWindow, State.setWindow, State.raise_withWindows,
        State.modLink_window, State.modLink_windows, State.modLink_congr (Link.sweepHalted_active active).symm]
      rfl
    · change (s.modWindow sw.window _).window i = _
      by_cases same : i = sw.window
      · simp [same]
      · simp [State.modWindow_window_ne _ same, Ne.symm same]

/-- The abort and the entry of the link's blocks to DISABLED or FAULT pass each other. -/
theorem State.abortSweep_goDown (left : s.linkState l ≠ .up) (r : Option FaultReason) :
    (s.abortSweep l .linkLeftUp).modLink l (·.goDown r) = (s.modLink l (·.goDown r)).abortSweep l .linkLeftUp := by
  have down : (s.modLink l (·.goDown r)).linkState l ≠ .up := by
    rw [State.modLink_linkState, Link.goDown_eq]
    cases r <;> exact fun h => nomatch h
  have engine : ((s.modLink l (·.goDown r)).link l).sweep = (s.link l).sweep := by
    rw [State.modLink_link, Link.goDown_sweep]
  cases active : (s.link l).sweep.active with
  | none => rw [State.abortSweep_none active, State.abortSweep_none (by rw [engine, active])]
  | some sw =>
    have commute : (s.modLink l Link.stopSweep).modLink l (·.goDown r) =
        (s.modLink l (·.goDown r)).modLink l Link.stopSweep := by
      rw [State.modLink_modLink, State.modLink_modLink]
      refine State.modLink_congr ?_
      rw [Link.goDown_eq, Link.goDown_eq]
      rfl
    rw [State.abortSweep_leftUp active left, State.abortSweep_leftUp (by rw [engine, active]) down, State.raise_modLink,
      ← commute]
    cases l <;> rfl

end

/-! ## Entry to DRAINING (R128) -/

/-- The link DRAINING, its sweep not yet aborted. -/
def Link.draining (k : Link) : Link := { k with control := { k.control with state := .draining } }

theorem State.enterDraining_def (s : State) (l : LinkId) :
    s.enterDraining l = (s.modLink l Link.draining).abortSweep l .linkLeftUp := rfl

theorem State.draining_left (s : State) (l : LinkId) : (s.modLink l Link.draining).linkState l ≠ .up := by
  rw [State.modLink_linkState]
  exact fun h => nomatch h

/-- The entry to DRAINING in full. -/
theorem State.enterDraining_eq (s : State) (l : LinkId) :
    ∃ v, s.enterDraining l = { ((s.modLink l fun k => k.draining.sweepHalted).offered
        ((s.link l).sweep.active.map fun sw => Event.sweepAborted sw.window .linkLeftUp).toList) with windows := v } ∧
      ∀ i, ({ s with windows := v } : State).window i = (s.window i).map fun w =>
        if (s.link l).sweep.active.map ActiveSweep.window = some i then w.withExport .stale else w := by
  obtain ⟨v, result, windows⟩ := State.abortSweep_leftUp_eq (s.draining_left l)
  have engine : ((s.modLink l Link.draining).link l).sweep = (s.link l).sweep := by
    rw [State.modLink_link]
    rfl
  simp only [engine, State.modLink_window, State.modLink_modLink] at result windows
  exact ⟨v, result, windows⟩

/-- A link that goes down through DRAINING ends where it would have ended at once, its sweep having been aborted (R127). -/
theorem State.enterDraining_enterDown (s : State) (l : LinkId) (r : Option FaultReason) :
    (s.enterDraining l).enterDown l r = s.enterDown l r := by
  have forgets : (s.modLink l Link.draining).modLink l (·.goDown r) = s.modLink l (·.goDown r) := by
    rw [State.modLink_modLink]
    refine State.modLink_congr ?_
    rw [Link.goDown_eq, Link.goDown_eq]
    rfl
  have swept : ((s.enterDraining l).modLink l (·.goDown r)).abortSweep l .linkLeftUp =
      (s.modLink l (·.goDown r)).abortSweep l .linkLeftUp := by
    rw [State.enterDraining_def, State.abortSweep_goDown (s.draining_left l), forgets,
      State.abortSweep_none (State.abortSweep_idle _ _ _)]
  simp only [State.enterDown, swept]

/-! ## LINK_DISABLE -/

/-- A link that went down, in a state that is then answered. -/
theorem State.WentDown.answered {s u : State} {l : LinkId} {r : Option FaultReason} (h : s.WentDown u l r)
    (out : Option Response) (code : Byte) (st : Status) (d : List Byte) :
    (s.answered out code st d).WentDown (u.answered out code st d) l r := by
  obtain ⟨same, control, transmitter, capture, receiver, conflict, queue, flag, outstanding, sweep, read, kept, windows,
    events, overflow⟩ := h
  obtain ⟨other, pending, inReset, config, host, port, applyPointer, sweepPointer, -, -⟩ := same
  have offered := State.offered_congr (s.downEvents l r) (s := s.answered out code st d) (t := s) rfl rfl
  exact ⟨⟨other, pending, inReset, config, host, port, applyPointer, sweepPointer, rfl, rfl⟩, control, transmitter,
    capture, receiver, conflict, queue, flag, outstanding, sweep, read, kept, windows, events.trans offered.1.symm,
    overflow.trans offered.2.symm⟩

theorem State.linkDisable_linkByte (s : State) (l : LinkId) (force : Byte) :
    s.linkDisable (linkByte l) force = ((s.disableLink l (decide (force ≠ 0))).respondOk 0x09).finish := by
  simp only [State.linkDisable, linkOf_linkByte]

section
variable {s : State} {l : LinkId} {force : Byte}

theorem State.disableLink_unchanged (h : s.linkState l = .disabled ∨ (s.linkState l = .draining ∧ force = 0)) :
    s.disableLink l (decide (force ≠ 0)) = s := by
  rcases h with state | ⟨state, rfl⟩ <;> simp only [State.disableLink, state]
  rfl

theorem State.disableLink_drains (up : s.linkState l = .up) (zero : force = 0) :
    s.disableLink l (decide (force ≠ 0)) = s.enterDraining l := by
  simp only [State.disableLink, up, zero]
  rfl

/-- Every other link goes down, one that is UP by way of DRAINING (R127). -/
theorem State.disableLink_down (h : s.linkState l = .hunting ∨ s.linkState l = .training ∨ s.linkState l = .fault ∨
    ((s.linkState l = .up ∨ s.linkState l = .draining) ∧ force ≠ 0)) :
    s.disableLink l (decide (force ≠ 0)) = s.enterDown l none := by
  rcases h with state | state | state | ⟨state | state, forced⟩
  · simp only [State.disableLink, state]
  · simp only [State.disableLink, state]
  · simp only [State.disableLink, state]
  · simp only [State.disableLink, state, decide_eq_true forced, if_true, State.enterDraining_enterDown]
  · simp only [State.disableLink, state, decide_eq_true forced, if_true]

end

/-- Settles O13: the three things LINK_DISABLE can do to a link, each followed by its response. -/
theorem linkDisableByState : Obligations.LinkDisableByState := by
  intro s out link force ht hs
  have taken : exec (.linkDisable link force) s = .next (s.linkDisable link force) :=
    State.take_of_taking ht (·.linkDisable link force)
  simp only [taken]
  refine ⟨fun other => ?_, ?_⟩
  · rw [State.linkDisable, linkOf_eq_none other, ← State.refuse_of_taking ht]
  rintro l rfl
  have answers {t : State} (effect : s.disableLink l (decide (force ≠ 0)) = t) (spi : t.spi = s.spi) :
      (.next (s.linkDisable (linkByte l) force) : Host.Outcome State Fault Refusal) =
        .next (t.answered out 0x09 .ok []).finish := by
    rw [State.linkDisable_linkByte, effect, ht.respondOk spi]
  refine ⟨fun unchanged => answers (State.disableLink_unchanged unchanged) rfl, fun up zero => ?_, fun down => ?_⟩
  · obtain ⟨v, result, windows⟩ := s.enterDraining_eq l
    have spi : (s.enterDraining l).spi = s.spi := by
      rw [result]
      exact (State.offered_spi _ _).trans (State.modLink_spi _ _ _)
    refine ⟨_, answers (State.disableLink_drains up zero) spi, ?_⟩
    rw [result]
    refine ⟨State.answered_sameButLink .., ?_, windows, ?_⟩
    · rw [State.answered_link, State.withWindows_link, State.offered_link, State.modLink_link]
      rfl
    · exact (State.offered_congr _ (State.modLink_events _ _ _) (State.modLink_overflow _ _ _)).1
  · have wentDown := State.enterDown_wentDown hs l none
    exact ⟨_, answers (State.disableLink_down down) wentDown.same.spi, wentDown.answered _ _ _ _⟩

end Sys2Proof.Machine
end

section
/-! SUPPORT. The end of a happening (`finish`), part by part: the drains that are complete, link A first, then the LOOP
frame starts, the room test and INTN. -/

namespace Sys2Proof.Machine

/-! ## What no part of it touches -/

/-- The same waiting commands, hardware reset, part configuration, memory port, pointers and management port. -/
def State.SameOutside (s t : State) : Prop :=
  t = { s with
    windows := t.windows, a := t.a, b := t.b, host := t.host, events := t.events, overflow := t.overflow, intn := t.intn }

namespace State.SameOutside

theorem refl (s : State) : s.SameOutside s := rfl

variable {s t : State} (h : s.SameOutside t)
include h

theorem trans {u : State} (h' : t.SameOutside u) : s.SameOutside u := by
  unfold State.SameOutside at *
  rw [h', h]

theorem fields : t.pending = s.pending ∧ t.inReset = s.inReset ∧ t.config = s.config ∧ t.port = s.port ∧
    t.applyPointer = s.applyPointer ∧ t.sweepPointer = s.sweepPointer ∧ t.response = s.response ∧ t.spi = s.spi := by
  unfold State.SameOutside at h
  rw [h]
  exact ⟨rfl, rfl, rfl, rfl, rfl, rfl, rfl, rfl⟩

theorem modLink (l : LinkId) (f : Link → Link) : s.SameOutside (t.modLink l f) := h.trans (by cases l <;> rfl)

theorem modWindow (i : Index) (f : Window → Window) : s.SameOutside (t.modWindow i f) := h.trans rfl

theorem modWindows (f : Window → Window) : s.SameOutside (t.modWindows f) :=
  h.trans (by rw [State.modWindows_eq]; rfl)

theorem raise (e : Event) : s.SameOutside (t.raise e) := h.trans (by rw [State.raise_eq]; rfl)

theorem setNotice (i : Index) : s.SameOutside (t.setNotice i) := by
  unfold State.setNotice
  split
  · split
    · exact (h.modWindow _ _).modLink _ _
    · exact h
  · exact h

theorem abortSweep (l : LinkId) (c : Cause) : s.SameOutside (t.abortSweep l c) := by
  unfold State.abortSweep
  split
  · exact h
  · have stopped := h.modLink l Link.stopSweep
    dsimp only
    split
    · exact stopped.raise _
    · split
      · exact ((stopped.modWindow _ _).raise _).setNotice _
      · exact (stopped.modWindow _ _).raise _

theorem enterDown (l : LinkId) (r : Option FaultReason) : s.SameOutside (t.enterDown l r) := by
  unfold State.enterDown
  cases r <;> exact (((h.modLink _ _).abortSweep _ _).modWindows _).raise _

theorem drainComplete (l : LinkId) : s.SameOutside (t.drainComplete l) := by
  unfold State.drainComplete
  dsimp only
  split
  · exact h.enterDown _ _
  · exact h

theorem roomTest : s.SameOutside t.roomTest := h.trans (by rw [State.roomTest_eq]; rfl)

theorem driveIntn : s.SameOutside t.driveIntn := h.trans rfl

theorem finish : s.SameOutside t.finish :=
  ((((h.drainComplete .a).drainComplete .b).modLink _ _).modLink _ _).roomTest.driveIntn

end State.SameOutside

/-! ## A link whose drain is complete (R128) -/

theorem State.drained_iff (s : State) (l : LinkId) : s.Drained l ↔
    s.linkState l = .draining ∧ (s.link l).capture.queue = [] ∧ (s.link l).tx.retransmit = [] ∧
      ∀ i, ∀ w ∈ s.window i, w.link = l → w.notice = false := by
  rw [State.Drained, State.noticeOwed_iff]
  simp [State.linkState]

theorem otherLink_ne (l : LinkId) : otherLink l ≠ l := by cases l <;> decide

theorem eq_otherLink {l l' : LinkId} (h : l' ≠ l) : l' = otherLink l := by
  cases l <;> cases l' <;> simp_all [otherLink]

/-- Two states with the same blocks of a link and the same entries of its windows. -/
structure State.AgreesOn (s t : State) (l : LinkId) : Prop where
  link : t.link l = s.link l
  windows : ∀ i w, w.link = l → (t.window i = some w ↔ s.window i = some w)

section
variable {s t u : State} {l : LinkId} {r : Option FaultReason}

theorem State.agreesOn_refl (s : State) (l : LinkId) : s.AgreesOn s l := ⟨rfl, fun _ _ _ => Iff.rfl⟩

theorem State.AgreesOn.drained_iff (h : s.AgreesOn t l) : t.Drained l ↔ s.Drained l := by
  have owed : t.noticeOwed l = s.noticeOwed l := by
    rw [Bool.eq_iff_iff, State.noticeOwed_iff, State.noticeOwed_iff]
    constructor <;> rintro ⟨i, w, window, onLink, notice⟩
    · exact ⟨i, w, (h.windows i w onLink).1 window, onLink, notice⟩
    · exact ⟨i, w, (h.windows i w onLink).2 window, onLink, notice⟩
  rw [State.Drained, State.Drained, owed, h.link]

/-- A link that goes down leaves the other link and its windows. -/
theorem State.WentDown.agreesOn_other (h : s.WentDown u l r) : s.AgreesOn u (otherLink l) where
  link := h.same.other
  windows i w onOther := by
    have apart : w.link ≠ l := onOther ▸ otherLink_ne l
    rw [h.windows i]
    constructor
    · intro entry
      obtain ⟨v, window, rfl⟩ := Option.map_eq_some_iff.1 entry
      split at apart
      next onLink => exact absurd onLink apart
      next elsewhere => rw [window, if_neg elsewhere]
    · intro window
      rw [window, Option.map_some, if_neg apart]

theorem Window.linkDown_link (l : LinkId) (w : Window) : (w.linkDown l).link = w.link := by
  unfold Window.linkDown
  split <;> rfl

/-- Links that agree go down alike, with their windows. -/
theorem State.AgreesOn.enterDown (h : s.AgreesOn t l) (hs : s.SweepLaw) (ht : t.SweepLaw) (r : Option FaultReason) :
    (s.enterDown l r).AgreesOn (t.enterDown l r) l := by
  have link {x : State} (hx : x.SweepLaw) : (x.enterDown l r).link l = (x.link l).downSwept r := by
    obtain ⟨v, result, -⟩ := x.enterDown_eq l r hx
    rw [result, State.withWindows_link, State.offered_link, State.modLink_link]
  have window {x : State} (hx : x.SweepLaw) (i : Index) :
      (x.enterDown l r).window i = (x.window i).map (Window.linkDown l) := (State.enterDown_wentDown hx l r).windows i
  refine ⟨by rw [link ht, link hs, h.link], fun i w onLink => ?_⟩
  rw [window ht, window hs, Option.map_eq_some_iff, Option.map_eq_some_iff]
  constructor <;> rintro ⟨v, entry, rfl⟩ <;> rw [Window.linkDown_link] at onLink
  · exact ⟨v, (h.windows i v onLink).1 entry, rfl⟩
  · exact ⟨v, (h.windows i v onLink).2 entry, rfl⟩

/-- A link that is not UP goes down: the law of sweeps holds after it as before, no sweep being active on it. -/
theorem State.SweepLaw.wentDown (hs : s.SweepLaw) (notUp : s.linkState l ≠ .up) (h : s.WentDown u l r) : u.SweepLaw := by
  have idle (i : Index) : ¬ s.Sweeps l i := fun sweeps => notUp (hs.up_of_sweeps sweeps)
  have other {l' : LinkId} (apart : l' ≠ l) : u.link l' = s.link l' := by
    rw [eq_otherLink apart]
    exact h.same.other
  refine hs.of_sweepsAs (g := fun _ => Window.linkDown l) h.windows
    (fun i w window => Window.sweepsAs_linkDown fun onLink sweeping => ?_) (fun l' i => ?_) (fun l' i sweeps up => ?_)
  · exact idle i (onLink ▸ (hs.sweeping_iff window).1 sweeping)
  · by_cases same : l' = l
    · subst same
      exact iff_of_false (by simp [State.Sweeps, h.sweep]) (idle i)
    · rw [State.Sweeps, State.Sweeps, other same]
  · have apart : l' ≠ l := fun same => idle i (same ▸ sweeps)
    rw [State.linkState, other apart]
    exact up

end

/-! ## The drains that a happening ends with -/

/-- The state after the complete drains of a happening, link A first. -/
def State.afterDrains (s : State) : State := (s.drainComplete .a).drainComplete .b

section
variable {s t : State} {l : LinkId} (hs : s.SweepLaw)
include hs

/-- A link whose drain is complete goes down; any other state is kept. -/
theorem State.SweepLaw.drainComplete_cases (l : LinkId) :
    (s.Drained l ∧ s.WentDown (s.drainComplete l) l none) ∨ (¬ s.Drained l ∧ s.drainComplete l = s) := by
  by_cases drained : s.Drained l
  · rw [State.drainComplete_of_drained drained]
    exact .inl ⟨drained, State.enterDown_wentDown hs l none⟩
  · exact .inr ⟨drained, State.drainComplete_of_not drained⟩

theorem State.SweepLaw.drainComplete (l : LinkId) : (s.drainComplete l).SweepLaw := by
  rcases hs.drainComplete_cases l with ⟨drained, down⟩ | ⟨-, same⟩
  · exact hs.wentDown (by rw [State.linkState, drained.1]; decide) down
  · rwa [same]

theorem State.SweepLaw.drainComplete_agreesOn_other (l : LinkId) : s.AgreesOn (s.drainComplete l) (otherLink l) := by
  rcases hs.drainComplete_cases l with ⟨-, down⟩ | ⟨-, same⟩
  · exact down.agreesOn_other
  · rw [same]
    exact s.agreesOn_refl _

theorem State.AgreesOn.drainComplete (h : s.AgreesOn t l) (ht : t.SweepLaw) :
    (s.drainComplete l).AgreesOn (t.drainComplete l) l := by
  by_cases drained : s.Drained l
  · rw [State.drainComplete_of_drained drained, State.drainComplete_of_drained (h.drained_iff.2 drained)]
    exact h.enterDown hs ht none
  · rwa [State.drainComplete_of_not drained, State.drainComplete_of_not (mt h.drained_iff.1 drained)]

/-- A link and its windows are left by its own drain alone. -/
theorem State.SweepLaw.afterDrains_agreesOn (l : LinkId) : (s.drainComplete l).AgreesOn s.afterDrains l := by
  cases l with
  | a => exact (hs.drainComplete .a).drainComplete_agreesOn_other .b
  | b => exact (hs.drainComplete_agreesOn_other .a).drainComplete hs (hs.drainComplete .a)

/-- Where the other link does not go down, what the link does is all that happens. -/
theorem State.SweepLaw.afterDrains_alone (other : ¬ s.Drained (otherLink l)) : s.afterDrains = s.drainComplete l := by
  cases l with
  | a => exact State.drainComplete_of_not (mt (hs.drainComplete_agreesOn_other .a).drained_iff.1 other)
  | b => exact congrArg (State.drainComplete · .b) (State.drainComplete_of_not other)

end

/-! ## LOOP frame starts (R56) -/

section
variable (k : Link)

theorem Link.startFrame_lineChange : k.LineChange Link.startFrame := by
  unfold Link.LineChange Link.startFrame
  split <;> rfl

theorem Link.loopStart_lineChange : k.LineChange Link.loopStart := by
  unfold Link.LineChange Link.loopStart
  split
  · exact k.startFrame_lineChange
  · rfl

theorem Link.startFrame_length : k.startFrame.tx.retransmit.length = k.tx.retransmit.length := by
  unfold Link.startFrame
  split
  · rfl
  · exact Link.markFirstUnsent_length _

theorem Link.loopStart_length : k.loopStart.tx.retransmit.length = k.tx.retransmit.length := by
  unfold Link.loopStart
  split
  · exact k.startFrame_length
  · rfl

end

/-! ## The end of a happening -/

section
variable (s : State) (l : LinkId)

/-- The room test looks at nothing that a frame start changes, so it can be read before the frame starts (R139). -/
theorem State.finish_eq : s.finish =
    ((s.afterDrains.roomTest.modLink .a Link.loopStart).modLink .b Link.loopStart).driveIntn := by
  have tested (t : State) (l : LinkId) : (t.modLink l Link.loopStart).roomTest = t.roomTest.modLink l Link.loopStart :=
    State.roomTest_modLine (t.link l).loopStart_lineChange
  rw [← tested, ← tested]
  rfl

theorem State.finish_link : s.finish.link l = (s.afterDrains.link l).loopStart := by
  rw [State.finish_eq, State.driveIntn_link]
  cases l
  · exact congrArg Link.loopStart (s.afterDrains.roomTest_link .a)
  · exact congrArg Link.loopStart (s.afterDrains.roomTest_link .b)

theorem State.finish_host : s.finish.host = s.afterDrains.roomTest.host := by
  rw [State.finish_eq, State.driveIntn_host, State.modLink_host, State.modLink_host]

theorem State.finish_windows : s.finish.windows = s.afterDrains.windows := by
  rw [State.finish_eq, State.driveIntn_windows, State.modLink_windows, State.modLink_windows, State.roomTest_windows]

theorem State.finish_window (i : Index) : s.finish.window i = s.afterDrains.window i :=
  congrArg (·[i]) s.finish_windows

theorem State.finish_events : s.finish.events = s.afterDrains.events := by
  rw [State.finish_eq, State.driveIntn_events, State.modLink_events, State.modLink_events, State.roomTest_eq]

theorem State.finish_overflow : s.finish.overflow = s.afterDrains.overflow := by
  rw [State.finish_eq, State.driveIntn_overflow, State.modLink_overflow, State.modLink_overflow, State.roomTest_eq]

theorem State.finish_intn : s.finish.intn = s.finish.intnAsserted := rfl

/-- States that are alike after their drains end alike. -/
theorem State.finish_congr {s t : State} (h : s.afterDrains = t.afterDrains) : s.finish = t.finish := by
  rw [State.finish_eq, State.finish_eq, h]

end

end Sys2Proof.Machine
end

section
/-! STATEMENTS. What every happening ends with, and the completion of a drain (R56, R128, R130, R139, R140, R161). -/

namespace Sys2Proof.Machine

/-! ## The completion of a drain (R128) -/

theorem Link.loopStart_of_idle {k : Link} (idle : k.control.state.carrying = false) : k.loopStart = k :=
  if_neg fun may => Bool.false_ne_true (idle.symm.trans may.2.1)

section
variable {s : State} {l : LinkId}

/-- What is left of a link's drain: a record, a frame or a notice. -/
theorem State.not_drained_of_left (left : (s.link l).capture.queue ≠ [] ∨ (s.link l).tx.retransmit ≠ [] ∨
    ∃ i, ∃ w ∈ s.window i, w.link = l ∧ w.notice = true) : ¬ s.Drained l := by
  rintro ⟨-, noRecord, noFrame, noNotice⟩
  rcases left with record | frame | notice
  · exact record noRecord
  · exact frame noFrame
  · exact noNotice ((s.noticeOwed_iff l).2 notice)

/-- A link that has gone down has no drain left to complete. -/
theorem State.SweepLaw.drainComplete_idem (hs : s.SweepLaw) (l : LinkId) :
    (s.drainComplete l).drainComplete l = s.drainComplete l := by
  rcases hs.drainComplete_cases l with ⟨-, down⟩ | ⟨-, same⟩
  · refine State.drainComplete_of_not fun drained => ?_
    have disabled := drained.1
    rw [down.control] at disabled
    cases disabled
  · rw [same, same]

/-- What is left after the first drain is finished in turn. -/
theorem State.SweepLaw.afterDrains_drainComplete (hs : s.SweepLaw) (inOrder : l = .b → ¬ s.Drained .a) :
    s.afterDrains = (s.drainComplete l).afterDrains := by
  cases l with
  | a => exact congrArg (State.drainComplete · .b) (hs.drainComplete_idem .a).symm
  | b =>
    have stays : ¬ (s.drainComplete .b).Drained (otherLink .b) :=
      mt (hs.drainComplete_agreesOn_other .b).drained_iff.1 (inOrder rfl)
    calc s.afterDrains
      _ = s.drainComplete .b := hs.afterDrains_alone (inOrder rfl)
      _ = (s.drainComplete .b).drainComplete .b := (hs.drainComplete_idem .b).symm
      _ = (s.drainComplete .b).afterDrains := ((hs.drainComplete .b).afterDrains_alone stays).symm

end

/-- Settles O14: a link and its windows end as the link's own drain leaves them, but for a LOOP frame start, and the event
queue does where the other link's drain is not complete. -/
theorem drainCompletes : Obligations.DrainCompletes := by
  intro s l hs draining left other
  have agrees := hs.afterDrains_agreesOn l
  have alone (h : s.linkState other ≠ .draining ∨ left other) : s.afterDrains = s.drainComplete l :=
    hs.afterDrains_alone (h.elim (fun state drained => state drained.1) State.not_drained_of_left)
  refine ⟨fun noRecord noFrame noNotice => ?_, fun remains => ?_⟩
  · have drained := (s.drained_iff l).2 ⟨draining, noRecord, noFrame, noNotice⟩
    have down : s.WentDown (s.drainComplete l) l none :=
      (hs.drainComplete_cases l).elim And.right fun kept => absurd drained kept.1
    refine ⟨s.drainComplete l, down, ?_, fun i w window onLink => ?_, fun h => ?_⟩
    · rw [State.finish_link, agrees.link, Link.loopStart_of_idle]
      rw [down.control]
      rfl
    · have entry : (s.drainComplete l).window i = some (w.linkDown l) := (down.windows i).trans (by rw [window]; rfl)
      rw [State.finish_window, entry]
      exact (agrees.windows i _ ((w.linkDown_link l).trans onLink)).2 entry
    · rw [State.finish_events, State.finish_overflow, alone h]
      exact ⟨rfl, rfl⟩
  · have kept : s.drainComplete l = s := State.drainComplete_of_not (State.not_drained_of_left remains)
    rw [kept] at agrees alone
    have link : s.finish.link l = { s.link l with
        tx := (s.link l).loopStart.tx, rx := (s.link l).loopStart.rx } := by
      rw [State.finish_link, agrees.link]
      exact (s.link l).loopStart_lineChange
    rw [link]
    refine ⟨rfl, rfl, rfl, rfl, (s.link l).loopStart_length, fun i w window onLink => ?_, fun h => ?_⟩
    · rw [State.finish_window]
      exact (agrees.windows i w onLink).2 window
    · rw [State.finish_events, State.finish_overflow, alone h]
      exact ⟨rfl, rfl⟩

/-! ## The start of a LOOP frame (R56) -/

section
variable {k : Link}

/-- In LOOP mode the hold flag of the link's own apply queue is its peer hold (R56). -/
theorem Link.loopStart_eq (k : Link) : k.loopStart =
    if k.config.mode = .loop ∧ (k.control.state = .up ∨ k.control.state = .draining) ∧ k.tx.output = .rest ∧
      k.apply.holdFlag = false then k.startFrame else k := by
  refine if_congr ?_ rfl rfl
  rw [LinkState.carrying_iff]
  refine and_congr_right fun loop => and_congr_right fun state => and_congr_right fun _ => ?_
  rw [Link.peerHold, if_pos ⟨loop, (LinkState.carrying_iff _).2 state⟩, Bool.not_eq_true]

/-- A frame starts in LOOP mode: the oldest unsent one is marked sent, and the ack timer stays as it is (R44, R49). -/
theorem Link.startFrame_loop (loop : k.config.mode = .loop) {pre post : List Frame} {f : Frame}
    (list : k.tx.retransmit = pre ++ f :: post) (ahead : ∀ g ∈ pre, g.sent = true) (unsent : f.sent = false) :
    k.startFrame = { k with tx := { k.tx with
      retransmit := pre ++ { f with sent := true } :: post, output := .frame { f with sent := true } } } := by
  have found : k.tx.retransmit.find? (fun f => !f.sent) = some f :=
    List.find?_eq_some_iff_append.2 ⟨by simp [unsent], pre, post, list, by simpa using ahead⟩
  simp only [Link.startFrame, found, loop, reduceCtorEq, false_and, if_false]
  rw [list, markFirstUnsent_split pre f post ahead unsent]

theorem Link.startFrame_allSent (sent : ∀ f ∈ k.tx.retransmit, f.sent = true) : k.startFrame = k := by
  have found : k.tx.retransmit.find? (fun f => !f.sent) = none :=
    List.find?_eq_none.2 fun f listed => by simp [sent f listed]
  simp only [Link.startFrame, found]

end

/-! ## The room test (R139, R140) -/

section
variable {s : State}

theorem State.roomTest_untested
    (h : ¬ (s.host.handling = some .capturing ∧ (s.host.phase = .claiming ∨ s.host.phase = .waitRoom))) :
    s.roomTest = s := if_neg h

variable (tested : s.host.handling = some .capturing ∧ (s.host.phase = .claiming ∨ s.host.phase = .waitRoom))
include tested

theorem State.roomTest_unmade (unmade : s.hostCaptureMade = false) : s.roomTest = s.claimHost .plain := by
  rw [State.roomTest, if_pos tested, if_pos (by simp [unmade])]

theorem State.roomTest_eligible (made : s.hostCaptureMade = true) (eligible : s.hostEligible = true) :
    s.roomTest.host = { s.host with phase := .claiming, holdTimer := s.host.holdTimer.pause } := by
  rw [State.roomTest, if_pos tested, if_neg (by simp [made]), if_pos eligible]

theorem State.roomTest_waits (made : s.hostCaptureMade = true) (full : s.hostEligible = false) : s.roomTest.host =
    { s.host with phase := .waitRoom, holdTimer := s.host.holdTimer.enterRoom s.config.holdLimit } := by
  rw [State.roomTest, if_pos tested, if_neg (by simp [made]), if_neg (by simp [full])]

end

/-- Settles O3: nothing outside is touched, the first complete drain leaves the rest to be finished in turn, and where none
is complete each part acts on the state as it stands. -/
theorem finishSettles : Obligations.FinishSettles := by
  intro s drained starts tested
  have drained_iff (l : LinkId) : drained l ↔ s.Drained l := (s.drained_iff l).symm
  obtain ⟨pending, inReset, config, port, applyPointer, sweepPointer, response, spi⟩ :=
    (State.SameOutside.refl s).finish.fields
  refine ⟨⟨pending, inReset, config, port, applyPointer, sweepPointer, response, spi, s.finish_intn⟩,
    fun l hs complete inOrder => ?_, fun notA notB => ?_⟩
  · simp only [drained_iff] at complete inOrder
    have down := State.enterDown_wentDown hs l none
    rw [← State.drainComplete_of_drained complete] at down
    exact ⟨_, down, State.finish_congr (hs.afterDrains_drainComplete inOrder)⟩
  · rw [drained_iff] at notA notB
    have after : s.afterDrains = s := by
      rw [State.afterDrains, State.drainComplete_of_not notA, State.drainComplete_of_not notB]
    have link (l : LinkId) : s.finish.link l = if starts l then (s.link l).startFrame else s.link l := by
      rw [State.finish_link, after, Link.loopStart_eq]
      rfl
    rw [State.finish_windows, State.finish_events, State.finish_overflow, State.finish_host, after]
    refine ⟨rfl, rfl, rfl, fun l pre f post may list ahead unsent => ?_, fun l idle => ?_, fun untested => ?_,
      fun held unmade => ?_, fun held made eligible => ?_, fun held made full => ?_⟩
    · rw [link, if_pos may]
      exact Link.startFrame_loop may.1 list ahead unsent
    · rw [link]
      rcases idle with mayNot | sent
      · exact if_neg mayNot
      · rw [Link.startFrame_allSent sent, ite_self]
    · rw [State.roomTest_untested untested]
    · rw [State.roomTest_unmade held unmade, State.claimHost_host]
    · rw [State.roomTest_eligible held made eligible]
      cases s.host.holdTimer <;> rfl
    · rw [State.roomTest_waits held made full]
      cases s.host.holdTimer <;> rfl

end Sys2Proof.Machine
end

section
/-! SUPPORT. The drain points of the apply queues, and what changes of a link leave of them (R85, R86). -/

namespace Sys2Proof.Machine

/-! ## Drain points -/

/-- The records of a link's apply queue that a drain point rests on, oldest first (R85). -/
def Link.drainRecords (k : Link) : List Record := (k.apply.queue.filter (·.drainPoint)).map ApplyEntry.record

theorem Link.mem_drainRecords (k : Link) (r : Record) :
    r ∈ k.drainRecords ↔ ∃ e ∈ k.apply.queue, e.drainPoint = true ∧ e.record = r := by
  simp [Link.drainRecords, and_assoc]

theorem Link.drainRecords_eq_nil (k : Link) : k.drainRecords = [] ↔ ∀ e ∈ k.apply.queue, e.drainPoint = false := by
  simp [Link.drainRecords]

theorem Link.drainRecords_sublist {k k' : Link} (h : k'.apply.queue.Sublist k.apply.queue) :
    k'.drainRecords.Sublist k.drainRecords := (h.filter _).map _

theorem State.drainPoints_eq (s : State) (l : LinkId) :
    s.drainPoints = (s.link l).drainRecords.length + (s.link (otherLink l)).drainRecords.length := by
  simp only [State.drainPoints, Link.drainRecords, List.length_map]
  cases l
  · rfl
  · exact Nat.add_comm _ _

theorem State.drainPoints_eq_zero (s : State) : s.drainPoints = 0 ↔ ∀ l, (s.link l).drainRecords = [] := by
  rw [State.drainPoints_eq s .a, Nat.add_eq_zero_iff, List.length_eq_zero_iff, List.length_eq_zero_iff]
  exact ⟨fun ⟨a, b⟩ => fun | .a => a | .b => b, fun h => ⟨h .a, h .b⟩⟩

/-! ## Changes of a link that keep its drain points -/

namespace Link

variable (k : Link)

theorem dropPlaceholder_drainRecords : k.dropPlaceholder.drainRecords = k.drainRecords := by
  unfold dropPlaceholder
  split <;> rfl

theorem noted_drainRecords (w : Window) (o : Offset) : (k.noted w o).drainRecords = k.drainRecords := by
  unfold noted
  split <;> rfl

theorem acknowledge_drainRecords (a : Seq) : (k.acknowledge a).drainRecords = k.drainRecords := by
  unfold acknowledge
  dsimp only
  split <;> rfl

theorem startFrame_drainRecords : k.startFrame.drainRecords = k.drainRecords := by
  unfold startFrame
  split <;> rfl

theorem chooseSymbol_drainRecords : k.chooseSymbol.drainRecords = k.drainRecords := by
  unfold chooseSymbol
  split
  · rfl
  · split
    · exact k.startFrame_drainRecords
    · rfl

theorem choicePoint_drainRecords (nodeId : Byte) : (k.choicePoint nodeId).drainRecords = k.drainRecords := by
  unfold choicePoint
  split
  · exact k.chooseSymbol_drainRecords
  · exact k.chooseSymbol_drainRecords
  all_goals rfl

theorem loopStart_drainRecords : k.loopStart.drainRecords = k.drainRecords := by
  rw [k.loopStart_lineChange]
  rfl

theorem requestNak_drainRecords : k.requestNak.drainRecords = k.drainRecords := by
  unfold requestNak
  split <;> rfl

theorem damage_drainRecords : k.damage.drainRecords = k.drainRecords := requestNak_drainRecords _

theorem damageAssembly_drainRecords : k.damageAssembly.drainRecords = k.drainRecords := by
  unfold damageAssembly
  split
  · exact k.damage_drainRecords
  · rfl

theorem beginFrame_drainRecords (seq seen : Seq) (count : Nat) (p : Payload) :
    (k.beginFrame seq seen count p).drainRecords = k.drainRecords := by
  unfold beginFrame
  split
  · exact k.damage_drainRecords
  · rfl

/-- The records of a frame enter the apply queue without a drain point (R78). -/
theorem takeRecords_drainRecords (seen : Seq) (items : List Record) :
    (k.takeRecords seen items).drainRecords = k.drainRecords := by
  have entered : (items.map fun r => (⟨r, some seen, false⟩ : ApplyEntry)).filter (·.drainPoint) = [] := by simp
  simp only [takeRecords, evalHold_eq, drainRecords, List.filter_append, entered, List.append_nil]

/-- A link that goes down loses markers, and a drain point rests on none (R88). -/
theorem goDown_drainRecords (reason : Option FaultReason) (h : ∀ r ∈ k.drainRecords, r.isMarker = false) :
    (k.goDown reason).drainRecords = k.drainRecords := by
  have kept : k.apply.queue.filter (fun e => e.drainPoint && !e.record.isMarker) =
      k.apply.queue.filter (·.drainPoint) := List.filter_congr fun e he => by
    cases drain : e.drainPoint with
    | false => rfl
    | true => simp [h e.record ((k.mem_drainRecords _).2 ⟨e, he, drain, rfl⟩)]
  simp only [goDown_eq, drainRecords, List.filter_map, Function.comp_def, List.filter_filter, kept, List.map_map]

theorem clearDrainPoint_drainRecords (q : ApplyBlock) :
    drainRecords { k with apply := { q with queue := clearDrainPoint q.queue } } = [] := by
  simp [drainRecords_eq_nil, clearDrainPoint]

end Link

/-- The newest record for the word is the one that the drain point comes to rest on (R85). -/
theorem markNewest_drained {t : Tag} {o : Offset} {q : List ApplyEntry} (found : q.any (·.record.isWriteOf t o) = true)
    (clear : ∀ e ∈ q, e.drainPoint = false) :
    ∃ r, r.isWriteOf t o = true ∧ ((markNewest t o q).filter (·.drainPoint)).map ApplyEntry.record = [r] := by
  induction q with
  | nil => cases found
  | cons e q ih =>
    obtain ⟨head, tail⟩ := List.forall_mem_cons.1 clear
    cases later : q.any (·.record.isWriteOf t o) with
    | true => simpa [markNewest, later, head] using ih later tail
    | false =>
      have here : e.record.isWriteOf t o = true := by simpa [later] using found
      have none_later : q.filter (·.drainPoint) = [] := List.filter_eq_nil_iff.2 (by simpa using tail)
      exact ⟨e.record, here, by simp [markNewest, later, here, none_later]⟩

theorem purgeTag_sublist (t : Tag) (kept : Bool) (q : List ApplyEntry) : (purgeTag t kept q).Sublist q := by
  cases kept with
  | false => exact List.filter_sublist
  | true =>
    cases q with
    | nil => exact List.Sublist.refl _
    | cons e q => exact List.filter_sublist.cons_cons e

end Sys2Proof.Machine
end

section
/-! SUPPORT. The law of the host port (R85, R86, R134, R146, R147): the changes that do not touch what it speaks of, and the
ends that an access and a drain can come to. -/

namespace Sys2Proof.Machine

/-! ## The word of a drain point -/

/-- The record on the link is a WRITE for the word of the access in progress, at a valid importing window of the link
(R85). -/
def State.DrainsAt (s : State) (l : LinkId) (r : Record) : Prop :=
  ∃ i o, ∃ w ∈ s.window i, s.host.classification = some (.window i o) ∧ w.link = l ∧ w.importSide.isSome = true ∧
    r.isWriteOf w.tag o = true

/-- What the word of a drain point says of its window. -/
def Window.importKey (w : Window) : LinkId × Tag × Bool := (w.link, w.tag, w.importSide.isSome)

/-- The classification stands, and a valid entry that it names keeps what a drain point says of it. -/
theorem State.DrainsAt.mono {s t : State} {l : LinkId} {r : Record} (h : s.DrainsAt l r)
    (classification : t.host.classification = s.host.classification)
    (entries : ∀ i o, s.host.classification = some (.window i o) → ∀ v ∈ s.window i,
      ∃ w ∈ t.window i, w.importKey = v.importKey) : t.DrainsAt l r := by
  obtain ⟨i, o, v, hv, target, link, imports, word⟩ := h
  obtain ⟨w, hw, key⟩ := entries i o target v hv
  simp only [Window.importKey, Prod.mk.injEq] at key
  obtain ⟨sameLink, tag, sameSide⟩ := key
  exact ⟨i, o, w, hw, classification.trans target, sameLink.trans link, sameSide.trans imports, by rwa [tag]⟩

/-! ## A port whose access neither waits nor is IN_MEMORY -/

/-- The host port does not own the outstanding transaction, and no drain point exists. -/
structure State.HostClear (s : State) : Prop where
  port : s.port.map PortTransaction.owner ≠ some .host
  undrained : ∀ l, (s.link l).drainRecords = []

namespace State.HostClear

variable {s : State} (hs : s.HostClear)
include hs

/-- The port takes up an access that neither waits nor is IN_MEMORY, or none. -/
theorem withHost {h : HostPort} (access : h.access.isSome = !decide (h.phase = .idle)) (waits : h.phase ≠ .waitDrain)
    (inMemory : h.phase ≠ .inMemory) (reset : s.inReset = true → h.phase = .idle) :
    ({ s with host := h } : State).HostLaw where
  access := access
  inMemory := iff_of_false inMemory hs.port
  drainPoint := by
    rw [if_neg waits]
    exact s.drainPoints_eq_zero.2 hs.undrained
  drainWord l e he drain := by
    rw [State.withHost_link] at he
    have free := ((s.link l).drainRecords_eq_nil.1 (hs.undrained l)) e he
    exact absurd (drain.symm.trans free) (by decide)
  inReset := reset

theorem completeHost (fault : Bool) (data : Option Word) : (s.completeHost fault data).HostLaw :=
  hs.withHost rfl nofun nofun fun _ => rfl

/-- The access in progress comes to stand in CLAIMING or in WAIT_ROOM. -/
theorem hold (running : s.inReset = false) {h : HostPort} (access : h.access.isSome = true)
    (phase : h.phase = .claiming ∨ h.phase = .waitRoom) : ({ s with host := h } : State).HostLaw := by
  refine hs.withHost ?_ ?_ ?_ fun reset => absurd (running.symm.trans reset) (by decide)
  all_goals rcases phase with phase | phase <;> simp [phase, access]

theorem claimHost (running : s.inReset = false) (access : s.host.access.isSome = true) (h : Handling) :
    (s.claimHost h).HostLaw := hs.hold running access (.inl rfl)

end State.HostClear

namespace State.HostLaw

variable {s t : State} (hs : s.HostLaw)
include hs

theorem drainsAt {l : LinkId} {r : Record} (h : r ∈ (s.link l).drainRecords) : s.DrainsAt l r := by
  obtain ⟨e, he, drain, rfl⟩ := ((s.link l).mem_drainRecords r).1 h
  exact hs.drainWord l e he drain

theorem undrained (waits : s.host.phase ≠ .waitDrain) (l : LinkId) : (s.link l).drainRecords = [] :=
  s.drainPoints_eq_zero.1 (by rw [hs.drainPoint, if_neg waits]) l

theorem clear (waits : s.host.phase ≠ .waitDrain) (inMemory : s.host.phase ≠ .inMemory) : s.HostClear :=
  ⟨mt hs.inMemory.2 inMemory, hs.undrained waits⟩

theorem access_isSome (busy : s.host.phase ≠ .idle) : s.host.access.isSome = true := by simp [hs.access, busy]

theorem running (busy : s.host.phase ≠ .idle) : s.inReset = false := Bool.eq_false_iff.2 (mt hs.inReset busy)

/-! ## Changes that the law does not speak of -/

/-- The phase stays and so do the access and the drain points; while the access waits, each drain point stays on a record for
its word. -/
theorem of_frame (phase : t.host.phase = s.host.phase) (access : t.host.access.isSome = s.host.access.isSome)
    (port : t.port.map PortTransaction.owner = some .host ↔ s.port.map PortTransaction.owner = some .host)
    (reset : t.inReset = true → s.inReset = true) (drains : ∀ l, (t.link l).drainRecords = (s.link l).drainRecords)
    (word : s.host.phase = .waitDrain → ∀ l r, s.DrainsAt l r → t.DrainsAt l r) : t.HostLaw where
  access := by rw [access, phase, hs.access]
  inMemory := by rw [phase, port, hs.inMemory]
  drainPoint := by rw [State.drainPoints_eq t .a, drains, drains, ← State.drainPoints_eq, phase, hs.drainPoint]
  drainWord l e he drain := by
    have there : e.record ∈ (s.link l).drainRecords := by
      rw [← drains]
      exact ((t.link l).mem_drainRecords _).2 ⟨e, he, drain, rfl⟩
    have waits : s.host.phase = .waitDrain := by
      by_contra other
      rw [hs.undrained other l] at there
      cases there
    exact word waits l _ (hs.drainsAt there)
  inReset h := phase.trans (hs.inReset (reset h))

/-- A part of the machine that the law does not speak of changes. -/
theorem outside (windows : t.windows = s.windows) (a : t.a = s.a) (b : t.b = s.b) (host : t.host = s.host)
    (port : t.port = s.port) (reset : t.inReset = s.inReset) : t.HostLaw :=
  hs.of_frame (by rw [host]) (by rw [host]) (by rw [port]) (by rw [reset]; exact id)
    (fun | .a => congrArg Link.drainRecords a | .b => congrArg Link.drainRecords b)
    fun _ _ _ h => h.mono (by rw [host]) fun i _ _ v hv => ⟨v, by rwa [State.window, windows], rfl⟩

/-- The port changes in nothing but its handling, its mark, its hold timer and its completion. -/
theorem withHost {h : HostPort} (phase : h.phase = s.host.phase) (access : h.access = s.host.access)
    (classification : h.classification = s.host.classification) : ({ s with host := h } : State).HostLaw :=
  hs.of_frame phase (by rw [access]) Iff.rfl id (fun l => by rw [State.withHost_link])
    fun _ _ _ drains => drains.mono classification fun _ _ _ v hv => ⟨v, hv, rfl⟩

/-- The transaction at the memory port changes, and is the access's neither before nor after. -/
theorem withPort {p : Option PortTransaction} (before : s.port.map PortTransaction.owner ≠ some .host)
    (after : p.map PortTransaction.owner ≠ some .host) : ({ s with port := p } : State).HostLaw :=
  hs.of_frame rfl rfl (iff_of_false after before) id (fun l => by rw [State.withPort_link]) fun _ _ _ => id

/-- A link changes, its drain points staying. -/
theorem modLink {l : LinkId} {f : Link → Link} (h : (f (s.link l)).drainRecords = (s.link l).drainRecords) :
    (s.modLink l f).HostLaw := by
  refine hs.of_frame (by rw [State.modLink_host]) (by rw [State.modLink_host]) (by rw [State.modLink_port])
    (by rw [State.modLink_inReset]; exact id)
    (State.modLink_forall (P := fun l' k => k.drainRecords = (s.link l').drainRecords) h fun _ _ => rfl)
    fun _ _ _ drains => drains.mono (by rw [State.modLink_host]) fun i _ _ v hv => ⟨v, ?_, rfl⟩
  rwa [State.modLink_window]

theorem raise (e : Event) : (s.raise e).HostLaw := by
  rw [State.raise_eq]
  exact hs.outside rfl rfl rfl rfl rfl rfl

theorem offered (es : List Event) : (s.offered es).HostLaw := by
  rw [State.offered_eq]
  exact hs.outside rfl rfl rfl rfl rfl rfl

/-- The window table changes, but the entry of an access that waits keeps its link, its tag and its import side. -/
theorem withWindows {v : Vector (Option Window) 16} (h : ∀ i o, s.host.phase = .waitDrain →
    s.host.classification = some (.window i o) → ∀ w ∈ s.window i,
      ∃ w' ∈ ({ s with windows := v } : State).window i, w'.importKey = w.importKey) :
    ({ s with windows := v } : State).HostLaw :=
  hs.of_frame rfl rfl Iff.rfl id (fun l => by rw [State.withWindows_link])
    fun waits _ _ drains => drains.mono rfl fun i o => h i o waits

theorem modWindow {i : Index} {f : Window → Window} (h : ∀ w, (f w).importKey = w.importKey) :
    (s.modWindow i f).HostLaw := by
  refine hs.withWindows fun j _ _ _ w hw => ?_
  change ∃ w' ∈ (s.modWindow i f).window j, _
  by_cases hj : j = i
  · subst hj
    exact ⟨f w, by rw [State.modWindow_window, hw]; rfl, h w⟩
  · exact ⟨w, by rwa [State.modWindow_window_ne _ hj], rfl⟩

theorem modWindows {f : Window → Window} (h : ∀ w, (f w).importKey = w.importKey) : (s.modWindows f).HostLaw := by
  have entry (i : Index) : (s.modWindows f).window i = (s.window i).map f := State.modWindows_window f s i
  have table := State.modWindows_eq f s
  generalize s.modWindows f = t at entry table ⊢
  rw [table]
  refine hs.withWindows fun i _ _ _ w hw => ⟨f w, ?_, h w⟩
  exact (entry i).trans (by rw [hw]; rfl)

/-- An entry that no access waits for changes. -/
theorem setEntry {i : Index} (h : s.host.phase = .waitDrain → ∀ o, s.host.classification ≠ some (.window i o))
    (e : Option Window) : (s.setWindow i e).HostLaw := by
  refine hs.withWindows fun j o waits target w hw => ⟨w, ?_, rfl⟩
  have hj : j ≠ i := fun same => h waits o (same ▸ target)
  exact (State.setWindow_window_ne s hj e).trans hw

/-- An OFF entry becomes valid: no access waits for it (R3). -/
theorem setOffEntry {i : Index} (off : s.window i = none) (w : Window) : (s.setWindow i (some w)).HostLaw := by
  refine hs.withWindows fun j o _ _ v hv => ⟨v, ?_, rfl⟩
  have hj : j ≠ i := by
    rintro rfl
    cases off.symm.trans hv
  exact (State.setWindow_window_ne s hj _).trans hv

theorem withExport (i : Index) (x : ExportState) : (s.modWindow i (·.withExport x)).HostLaw :=
  hs.modWindow fun _ => rfl

theorem withImport (i : Index) (m : ImportState) : (s.modWindow i (·.withImport m)).HostLaw :=
  hs.modWindow fun w => by simp [Window.importKey, Window.withImport]

theorem withNotice (i : Index) (b : Bool) : (s.modWindow i fun w => { w with notice := b }).HostLaw :=
  hs.modWindow fun _ => rfl

/-! ## Notices, sides and sweeps -/

theorem setFlushDue (l : LinkId) : (s.setFlushDue l).HostLaw := hs.modLink rfl

theorem setNotice (i : Index) : (s.setNotice i).HostLaw := by
  unfold State.setNotice
  split
  · split
    · exact (hs.withNotice i true).setFlushDue _
    · exact hs
  · exact hs

theorem abortSweep (l : LinkId) (c : Cause) : (s.abortSweep l c).HostLaw := by
  unfold State.abortSweep
  split
  · exact hs
  next sw _ =>
    have stopped : (s.modLink l Link.stopSweep).HostLaw := hs.modLink rfl
    have stale := (stopped.withExport sw.window .stale).raise (.sweepAborted sw.window c)
    dsimp only
    split
    · exact stopped.raise _
    · split
      · exact stale.setNotice _
      · exact stale

theorem localStale (i : Index) (c : Cause) : (s.localStale i c).HostLaw := by
  unfold State.localStale
  split
  · exact hs
  · split
    · have stale := (hs.withExport i .stale).raise (.windowStale i .exportSide c)
      dsimp only
      split
      · exact stale.setNotice i
      · exact stale
    · exact hs.abortSweep _ _
    · exact hs
    · exact hs

theorem importStale (i : Index) (c : Cause) : (s.importStale i c).HostLaw := by
  unfold State.importStale
  split
  · exact hs
  · split
    · exact (hs.withImport _ _).raise _
    · exact (hs.withImport _ _).raise _
    · exact hs
    · exact hs

theorem applyControl (l : LinkId) (r : Record) : (s.applyControl l r).HostLaw := by
  unfold State.applyControl
  split
  · exact hs
  · split
    · exact hs.withImport _ _
    · split
      · exact (hs.withImport _ _).raise _
      · exact hs
    · exact hs.importStale _ _
    · exact hs

end State.HostLaw

/-! ## An access that proceeds -/

namespace State.HostClear

variable {s : State} (hs : s.HostClear) (running : s.inReset = false) (access : s.host.access.isSome = true)
include hs running access

theorem exportWrite (i : Index) (w : Window) : (s.exportWrite i w).HostLaw := by
  have claimed := hs.claimHost running access
  unfold State.exportWrite
  split
  · exact claimed _
  · exact claimed _
  all_goals
    split
    · exact claimed _
    · exact claimed _
    · exact claimed _
    · exact (claimed _).localStale _ _
    · exact (claimed _).localStale _ _
    · exact (claimed _).localStale _ _

theorem proceedHost : s.proceedHost.HostLaw := by
  have claimed := hs.claimHost running access
  unfold State.proceedHost
  split
  · split
    · split
      · exact hs.completeHost _ _
      · exact hs.completeHost _ _
      · exact claimed _
      · exact claimed _
    · exact claimed _
    · exact claimed _
    · exact hs.exportWrite running access _ _
    · exact hs.exportWrite running access _ _
  · exact claimed _

end State.HostClear

namespace State.HostLaw

variable {s t : State} (hs : s.HostLaw)
include hs

/-- A drain point that exists is not ended (R86). -/
theorem endDrain_self : s.endDrain = s :=
  State.endDrain_not (or_iff_not_imp_left.2 fun waits => hs.exists_drainPoint (not_not.1 waits))

/-- Records leave the apply queue of a link: the drain point stays, or it leaves with them and the access proceeds (R86). -/
theorem endDrain {l : LinkId} {f : Link → Link} (h : (f (s.link l)).drainRecords.Sublist (s.link l).drainRecords) :
    (s.modLink l f).endDrain.HostLaw := by
  by_cases same : (f (s.link l)).drainRecords = (s.link l).drainRecords
  · have kept := hs.modLink same
    rwa [kept.endDrain_self]
  · have fewer : (f (s.link l)).drainRecords.length < (s.link l).drainRecords.length :=
      lt_of_le_of_ne h.length_le (mt h.eq_of_length same)
    have waits : s.host.phase = .waitDrain := by
      by_contra other
      simp [hs.undrained other l] at fewer
    have undrained : (s.modLink l f).drainPoints = 0 := by
      have one := hs.drainPoint
      rw [if_pos waits, State.drainPoints_eq s l] at one
      rw [State.drainPoints_eq _ l, State.modLink_link, State.modLink_link_other]
      omega
    have gone := (s.modLink l f).drainPoints_eq_zero.1 undrained
    have clear : (s.modLink l f).HostClear := ⟨by
      rw [State.modLink_port]
      exact mt hs.inMemory.2 (by rw [waits]; decide), gone⟩
    have busy : s.host.phase ≠ .idle := by rw [waits]; decide
    rw [State.endDrain_of (by rw [State.modLink_host, waits]) fun l' => (Link.drainRecords_eq_nil _).1 (gone l')]
    exact clear.proceedHost (by rw [State.modLink_inReset, hs.running busy])
      (by rw [State.modLink_host, hs.access_isSome busy])

end State.HostLaw
end Sys2Proof.Machine
end

section
/-! SUPPORT. The host port, the apply queues, the memory port and the clear of a window keep the law of the host port. -/

namespace Sys2Proof.Machine

/-- The host claim is chosen only while the access stands in CLAIMING (R149). -/
theorem State.claiming_of_choose {s : State} (h : s.choose = some .host) : s.host.phase = .claiming := by
  rcases State.choose_cases h with h | h | h | h
  · simp [State.urgentChoice] at h
  · simp [State.patientChoice] at h
  · simp only [State.hostChoice, Option.ite_none_right_eq_some] at h
    exact h.1.1
  · simp [State.remainingChoice] at h

/-- An offer by the head changes the conflict unit of the link alone (R98). -/
theorem State.offerHead_eq (s : State) (l : LinkId) :
    ∃ c : Link → ConflictUnit, s.offerHead l = s.modLink l fun k => { k with conflict := c k } := by
  unfold State.offerHead
  split
  · exact ⟨_, s.offerHorizon_eq l _⟩
  · exact ⟨Link.conflict, (s.modLink_id l).symm⟩

theorem State.setWindow_forgetWindow (s : State) (i j : Index) (e : Option Window) :
    (s.setWindow j e).forgetWindow i = (s.forgetWindow i).setWindow j e := by
  unfold State.forgetWindow
  rw [State.setWindow_host]
  split
  · split
    · split <;> rfl
    · rfl
  · rfl

/-! ## An access that arrives -/

/-- The link with the drain point on the newest WRITE record for the word (R85). -/
def Link.drainMarked (t : Tag) (o : Offset) (k : Link) : Link :=
  { k with apply := { k.apply with queue := markNewest t o k.apply.queue } }

/-- An access that comes to wait: its drain point, and the port in WAIT_DRAIN. -/
theorem State.hostAt_waitDrain (s : State) (acc : Access) (c : Classification) (w : Window) (o : Offset) :
    ∃ h, (s.hostAt acc c .idle none).waitDrain w o =
      (s.modLink w.link (Link.drainMarked w.tag o)).hostAt acc c .waitDrain h := by
  refine ⟨((s.hostAt acc c .idle none).waitDrain w o).host.handling, ?_⟩
  unfold State.waitDrain
  cases w.link <;> rfl

theorem State.hostAt_link (s : State) (acc : Access) (c : Classification) (phase : HostPhase) (h : Option Handling)
    (l : LinkId) : (s.hostAt acc c phase h).link l = s.link l := s.withHost_link _ l

/-- The lookup answers a valid entry (R10). -/
theorem State.window_of_windowAt {s : State} {addr : WordAddr} {i : Index} (found : s.windowAt addr = some i) :
    ∃ w, s.window i = some w := by
  have holds := List.find?_some found
  cases window : s.window i with
  | none => simp [window] at holds
  | some w => exact ⟨w, rfl⟩

section
variable {s : State} {acc : Access}

theorem State.arrive_noLanes (noLanes : acc.mask = 0) : s.arrive acc = s.hostEnds false none := by
  rw [State.arrive, if_pos noLanes]
  rfl

theorem State.arrive_noWindow (lanes : acc.mask ≠ 0) (nowhere : s.windowAt acc.addr = none) :
    s.arrive acc = s.hostAt acc .noWindow .claiming (some .plain) := by
  simp only [State.arrive, if_neg lanes, nowhere]
  rfl

/-- An access to a valid window waits behind a queued WRITE record for its word, or proceeds (R85, R135). -/
theorem State.arrive_window {i : Index} {w : Window} (lanes : acc.mask ≠ 0) (found : s.windowAt acc.addr = some i)
    (window : s.window i = some w) : s.arrive acc =
      if w.importSide.isSome = true ∧
          (s.link w.link).apply.queue.any (·.record.isWriteOf w.tag (w.offsetOf acc.addr)) = true then
        (s.hostAt acc (.window i (w.offsetOf acc.addr)) .idle none).waitDrain w (w.offsetOf acc.addr)
      else (s.hostAt acc (.window i (w.offsetOf acc.addr)) .idle none).proceedHost := by
  simp only [State.arrive, if_neg lanes, found, window, State.withHost_link]
  rfl

end

namespace State.HostLaw

variable {s t : State} (hs : s.HostLaw)
include hs

/-! ## The access in progress -/

theorem roomTest : s.roomTest.HostLaw := by
  unfold State.roomTest
  split
  next tested =>
    obtain ⟨-, phase⟩ := tested
    have busy : s.host.phase ≠ .idle := by rcases phase with phase | phase <;> rw [phase] <;> decide
    have clear : s.HostClear := by apply hs.clear <;> rcases phase with phase | phase <;> rw [phase] <;> decide
    split
    · exact clear.claimHost (hs.running busy) (hs.access_isSome busy) _
    · split
      · exact clear.hold (hs.running busy) (hs.access_isSome busy) (.inl rfl)
      · exact clear.hold (hs.running busy) (hs.access_isSome busy) (.inr rfl)
  next => exact hs

theorem holdExpiry (waits : s.host.phase = .waitRoom) : s.holdExpiry.HostLaw := by
  have busy : s.host.phase ≠ .idle := by rw [waits]; decide
  have clear : s.HostClear := hs.clear (by rw [waits]; decide) (by rw [waits]; decide)
  have claimed := clear.claimHost (hs.running busy) (hs.access_isSome busy) .plain
  unfold State.holdExpiry
  split
  · exact claimed.localStale _ _
  · exact claimed

/-- An access that arrives comes to wait behind the newest record for its word, and this is the one drain point (R85). -/
theorem waitDrain {acc : Access} {i : Index} {w : Window} {o : Offset} (running : s.inReset = false)
    (idle : s.host.phase = .idle) (window : s.window i = some w) (imports : w.importSide.isSome = true)
    (found : (s.link w.link).apply.queue.any (·.record.isWriteOf w.tag o) = true) :
    ((s.hostAt acc (.window i o) .idle none).waitDrain w o).HostLaw := by
  have clear : s.HostClear := hs.clear (by rw [idle]; decide) (by rw [idle]; decide)
  obtain ⟨r, word, marked⟩ := markNewest_drained found
    ((Link.drainRecords_eq_nil _).1 (clear.undrained w.link))
  obtain ⟨h, waits⟩ := s.hostAt_waitDrain acc (.window i o) w o
  rw [waits]
  have own : ((s.modLink w.link (Link.drainMarked w.tag o)).link w.link).drainRecords = [r] := by
    rw [State.modLink_link]
    exact marked
  have other := (congrArg Link.drainRecords (s.modLink_link_other w.link (Link.drainMarked w.tag o))).trans
    (clear.undrained _)
  constructor
  case access => rfl
  case inMemory =>
    refine iff_of_false nofun ?_
    change (s.modLink _ _).port.map _ ≠ _
    rw [State.modLink_port]
    exact clear.port
  case drainPoint =>
    rw [State.drainPoints_eq _ w.link, State.hostAt_link, State.hostAt_link, own, other]
    rfl
  case drainWord =>
    intro l e he drain
    rw [State.hostAt_link] at he
    have there := (Link.mem_drainRecords _ e.record).2 ⟨e, he, drain, rfl⟩
    by_cases same : l = w.link
    · rw [same, own, List.mem_singleton] at there
      exact ⟨i, o, w, (State.modLink_window _ _ _ i).trans window, rfl, same.symm, imports, there ▸ word⟩
    · rw [eq_otherLink same, other] at there
      cases there
  case inReset =>
    intro reset
    have lasting : s.inReset = true := (State.modLink_inReset _ _ _).symm.trans reset
    exact absurd (running.symm.trans lasting) (by decide)

theorem arrive (running : s.inReset = false) (idle : s.host.phase = .idle) (acc : Access) : (s.arrive acc).HostLaw := by
  have clear : s.HostClear := hs.clear (by rw [idle]; decide) (by rw [idle]; decide)
  by_cases lanes : acc.mask = 0
  · rw [State.arrive_noLanes lanes]
    exact clear.completeHost _ _
  · cases found : s.windowAt acc.addr with
    | none =>
      rw [State.arrive_noWindow lanes found]
      exact clear.hold running rfl (.inl rfl)
    | some i =>
      obtain ⟨w, window⟩ := s.window_of_windowAt found
      rw [State.arrive_window lanes found window]
      split
      next waits => exact hs.waitDrain running idle window waits.1 waits.2
      next =>
        have classified : (s.hostAt acc (.window i (w.offsetOf acc.addr)) .idle none).HostClear :=
          ⟨clear.port, fun l => by rw [State.hostAt_link]; exact clear.undrained l⟩
        exact classified.proceedHost running rfl

/-! ## The apply queue -/

theorem offerHead (l : LinkId) : (s.offerHead l).HostLaw := by
  obtain ⟨c, offers⟩ := s.offerHead_eq l
  rw [offers]
  exact hs.modLink rfl

theorem offerIdle (l : LinkId) (ack next : Seq) : (s.offerIdle l ack next).HostLaw := by
  unfold State.offerIdle
  dsimp only
  split
  · rw [State.offerHorizon_eq]
    exact hs.modLink rfl
  · exact hs

theorem offerFrame (l : LinkId) (seen : Seq) (items : List Record) : (s.offerFrame l seen items).HostLaw := by
  have taken := hs.modLink (l := l) (f := fun k => { k.takeRecords seen items with
      rx := { (k.takeRecords seen items).rx with
        receiveExpected := (k.takeRecords seen items).rx.receiveExpected + 1, nakSent := false } })
    ((s.link l).takeRecords_drainRecords seen items)
  unfold State.offerFrame
  dsimp only
  split
  · split
    · exact taken.offerHead l
    · exact taken
  · exact hs

theorem popApply (l : LinkId) : (s.popApply l).HostLaw := by
  unfold State.popApply
  dsimp only
  obtain ⟨c, offers⟩ := State.offerHead_eq (s.modLink l fun k => Link.evalHold
    { k with apply := { k.apply with queue := k.apply.queue.tail, outstanding := .none } }) l
  rw [offers, State.modLink_modLink]
  exact hs.endDrain (Link.drainRecords_sublist (List.tail_sublist (s.link l).apply.queue))

theorem purgeApply (l : LinkId) (t : Tag) : (s.purgeApply l t).HostLaw := by
  rw [State.purgeApply_eq]
  exact hs.endDrain (Link.drainRecords_sublist (purgeTag_sublist _ _ _))

theorem discardHead (l : LinkId) (t : Tag) (e : Option Cause) : (s.discardHead l t e).HostLaw := by
  cases e with
  | none => exact hs.popApply l
  | some c => exact (hs.raise _).popApply l

theorem decideControl (l : LinkId) : (s.decideControl l).HostLaw := by
  unfold State.decideControl
  split
  · exact (hs.applyControl _ _).popApply _
  · exact hs

/-! ## The clear of a window -/

/-- A window that is cleared has no access waiting for it (R144): the entry can go OFF. -/
theorem forgetWindow (i : Index) : (s.forgetWindow i).HostLaw ∧
    ∀ o, (s.forgetWindow i).host.phase = .waitDrain → (s.forgetWindow i).host.classification ≠ some (.window i o) := by
  have other (o : Offset) (waits : (s.forgetWindow i).host.phase = .waitDrain) :
      (s.forgetWindow i).host.classification ≠ some (.window i o) := by
    rw [State.forgetWindow_host] at waits ⊢
    intro target
    exact (HostPort.classification_of_forget target).2 rfl
  refine ⟨?_, other⟩
  unfold State.forgetWindow
  split
  next j o target =>
    split
    · split
      next held =>
        have busy : s.host.phase ≠ .idle := by intro idle; rw [idle] at held; cases held
        have elsewhere : s.host.phase ≠ .inMemory := by intro inMemory; rw [inMemory] at held; cases held
        have dropped : s.dropDrainPoint.HostClear := by
          refine ⟨mt hs.inMemory.2 elsewhere, fun l => ?_⟩
          cases l <;> exact Link.clearDrainPoint_drainRecords _ _
        exact dropped.hold (hs.running busy) (hs.access_isSome busy) (.inl rfl)
      next held =>
        have waits : s.host.phase ≠ .waitDrain := fun waits => held (by rw [waits]; rfl)
        exact hs.of_frame rfl rfl Iff.rfl id (fun l => by rw [State.withHost_link]) fun h => absurd h waits
    · exact hs
  next => exact hs

theorem releaseWindow (i : Index) (l : LinkId) : (s.releaseWindow i l).HostLaw := by
  have stopped : (s.modLink l (·.stopSweepOf i)).HostLaw := hs.modLink rfl
  obtain ⟨law, unused⟩ := (stopped.offered ((s.link l).sweep.clearEvents i)).forgetWindow i
  rw [State.releaseWindow, State.setWindow_forgetWindow]
  exact law.setEntry (fun waits o => unused o waits) none

theorem clearWindow (i : Index) (w : Window) : (s.clearWindow i w).HostLaw := by
  have cleared := (hs.releaseWindow i w.link).modLink (l := w.link) (f := fun k =>
    { k with
      apply := { k.apply with outstanding := k.apply.outstanding.forget i }
      conflict := if w.isShared then k.conflict.dropTag w.tag else k.conflict }) rfl
  unfold State.clearWindow
  dsimp only
  rw [State.abortSweep_cleared]
  split
  · exact cleared.purgeApply _ _
  · exact cleared

/-! ## Capture and grants -/

theorem captureWrite (w : Window) (o : Offset) (m : LaneMask) (d : Word) : (s.captureWrite w o m d).HostLaw := by
  have entered := hs.modLink (l := w.link) (f := fun k => if k.mergesInto w o then
        { k with capture := { k.capture with queue := mergeNewest w.tag o m d k.capture.queue } }
      else k.enqueue (.record (.write w.tag o m d))) (by split <;> rfl)
  exact entered.modLink (Link.noted_drainRecords _ w o)

theorem removePlaceholder (l : LinkId) : (s.removePlaceholder l).HostLaw :=
  hs.modLink (Link.dropPlaceholder_drainRecords _)

theorem countHostGrant : s.countHostGrant.HostLaw := by
  unfold State.countHostGrant
  dsimp only
  exact State.HostLaw.modLink (hs.modLink rfl) rfl

/-- The host grant: the access that stood in CLAIMING is IN_MEMORY, and owns the transaction that is issued (R142, R147). -/
theorem grantHost (claiming : s.host.phase = .claiming) : s.grantHost.HostLaw := by
  have busy : s.host.phase ≠ .idle := by rw [claiming]; decide
  have counted := hs.countHostGrant
  have host : s.countHostGrant.host = s.host := by simp [State.countHostGrant]
  have reset : s.countHostGrant.inReset = s.inReset := by simp [State.countHostGrant]
  have granted (p : PortTransaction) (owner : p.owner = .host) (captured : Bool) :
      ({ s.countHostGrant with
        port := some p
        host := { s.host with phase := .inMemory, captured, holdTimer := .stopped } } : State).HostLaw := {
    access := hs.access_isSome busy
    inMemory := iff_of_true rfl (congrArg some owner)
    drainPoint := s.countHostGrant.drainPoints_eq_zero.2 (counted.undrained (by rw [host, claiming]; decide))
    drainWord := fun l e he drain => by
      have none_on := (Link.drainRecords_eq_nil _).1 (counted.undrained (by rw [host, claiming]; decide) l) e
      cases l <;> exact absurd (drain.symm.trans (none_on he)) (by decide)
    inReset := fun lasting => absurd ((hs.running busy).symm.trans (reset.symm.trans lasting)) (by decide) }
  unfold State.grantHost
  split
  · exact hs
  · dsimp only
    split
    · exact (granted _ rfl _).captureWrite _ _ _ _
    · exact granted _ rfl _

theorem grantSweep (free : s.port = none) (l : LinkId) : (s.grantSweep l).HostLaw := by
  cases claim : s.sweepClaim l with
  | none => rwa [State.grantSweep, claim]
  | some c =>
    obtain ⟨i, w, o⟩ := c
    have granted := hs.modLink (l := l) (f := Link.readGranted w o) (by
      rw [Link.readGranted_eq]
      rfl)
    have issued := granted.withPort (p := some { owner := .sweep l, kind := .read, addr := w.addrOf o, mask := 15 })
      (by rw [State.modLink_port, free]; nofun) nofun
    rw [State.grantSweep_of claim]
    exact issued.outside rfl rfl rfl rfl rfl rfl

theorem grantApply (free : s.port = none) (l : LinkId) (i : Index) (addr : WordAddr) (m : LaneMask) (d : Word) :
    (s.grantApply l i addr m d).HostLaw := by
  have granted := hs.modLink (l := l) (f := fun k =>
    { k with apply := { k.apply with outstanding := .forWindow i }, patience := { k.patience with apply := 0 } }) rfl
  have issued := granted.withPort (p := some { owner := .apply l, kind := .write d, addr, mask := m })
    (by rw [State.modLink_port, free]; nofun) nofun
  exact issued.outside rfl rfl rfl rfl rfl rfl

omit hs in
theorem arbitrate (fuel : Nat) : ∀ {s : State}, s.HostLaw → (s.arbitrate fuel).HostLaw := by
  induction fuel with
  | zero => exact fun hs => hs
  | succ fuel ih =>
    intro s hs
    unfold State.arbitrate
    split
    · exact hs
    next busy =>
      have free : s.port = none := by simpa using busy
      split
      · exact hs
      next choice => exact hs.grantHost (State.claiming_of_choose choice)
      · exact hs.grantSweep free _
      · split
        · split
          · exact hs.grantApply free _ _ _ _ _
          · exact ih (hs.discardHead _ _ _).roomTest
        · exact hs

theorem arbiterChoice : s.arbiterChoice.HostLaw := State.HostLaw.arbitrate _ hs

/-! ## Completions -/

theorem completeApply (l : LinkId) (status : MemStatus) : (s.completeApply l status).HostLaw := by
  unfold State.completeApply
  split
  · exact hs
  · exact hs.popApply _
  · cases status with
    | ok d => exact hs.popApply _
    | fault => exact (hs.popApply _).importStale _ _

theorem sweepReadOk (l : LinkId) (sw : ActiveSweep) (w : Window) (d : Word) : (s.sweepReadOk l sw w d).HostLaw := by
  have filled : (s.fillRead l (decide (w.coalesce = some true)) d).HostLaw := hs.modLink rfl
  unfold State.sweepReadOk
  exact filled.modLink rfl

theorem completeSweep (l : LinkId) (status : MemStatus) : (s.completeSweep l status).HostLaw := by
  have done : (s.modLink l Link.readDone).HostLaw := hs.modLink rfl
  unfold State.completeSweep
  dsimp only
  split
  · exact done
  · exact done.removePlaceholder _
  · exact done.removePlaceholder _
  · split
    · exact done.sweepReadOk _ _ _ _
    · exact done.removePlaceholder _
    · exact (done.removePlaceholder _).abortSweep _ _

omit hs in
/-- The access ends with its transaction, and the port is free of it (R143, R147). -/
theorem completeHostAccess (clear : s.HostClear) (kind : AccessKind) (status : MemStatus) :
    (s.completeHostAccess kind status).HostLaw := by
  unfold State.completeHostAccess
  cases status with
  | ok d => exact clear.completeHost _ _
  | fault =>
    dsimp only
    split
    · exact (clear.completeHost _ _).localStale _ _
    · exact clear.completeHost _ _

theorem complete {p : PortTransaction} (port : s.port = some p) (status : MemStatus) : (s.complete p status).HostLaw := by
  have freed (other : p.owner ≠ .host) : ({ s with port := none } : State).HostLaw :=
    hs.withPort (by rw [port]; exact fun same => other (Option.some.inj same)) nofun
  have owned : (({ s with port := none } : State).completeOwner p status).HostLaw := by
    unfold State.completeOwner
    split
    next owner =>
      have inMemory : s.host.phase = .inMemory := hs.inMemory.2 (by rw [port, Option.map_some, owner])
      have clear : ({ s with port := none } : State).HostClear :=
        ⟨nofun, fun l => by rw [State.withPort_link]; exact hs.undrained (by rw [inMemory]; decide) l⟩
      exact State.HostLaw.completeHostAccess clear _ _
    next owner => exact (freed (by rw [owner]; nofun)).completeApply _ _
    next owner => exact (freed (by rw [owner]; nofun)).completeSweep _ _
    next owner => exact freed (by rw [owner]; nofun)
  exact owned.roomTest.arbiterChoice

end State.HostLaw
end Sys2Proof.Machine
end

section
/-! STATEMENTS. The host port: links, sweeps, requests and commands, and so every step, keep its law. -/

namespace Sys2Proof.Machine

/-! ## The access held at soft reset -/

/-- The handling that the policy of an importing window gives the access in progress, and plain for any other (R136, R145). -/
def State.heldHandling (s : State) : Handling :=
  match s.host.access, s.hostTarget with
  | some acc, some (_, w, _) => if w.direction = .imports then importHandling w.policy acc.kind else .plain
  | _, _ => .plain

/-- A held access as soft reset leaves it, by that handling (R145). -/
def State.reclassified (s : State) : Handling → State
  | .dropped => s.completeHost false none
  | .refused => s.completeHost true none
  | .plain | .capturing => s.claimHost .plain

theorem State.softResetHost_held {s : State} (held : s.host.phase.held = true) :
    s.softResetHost = s.reclassified s.heldHandling := by
  have busy : s.softResetHost = match s.host.access, s.hostTarget with
      | some acc, some (_, w, _) =>
        if w.direction = .imports then s.reclassified (importHandling w.policy acc.kind) else s.claimHost .plain
      | _, _ => s.claimHost .plain := by
    cases phase : s.host.phase with
    | idle | inMemory => rw [phase] at held; cases held
    | waitDrain | waitRoom | claiming =>
      simp only [softResetHost, phase]
      rfl
  rw [busy]
  cases access : s.host.access with
  | none => simp only [heldHandling, access, reclassified]
  | some acc =>
    cases target : s.hostTarget with
    | none => simp only [heldHandling, access, target, reclassified]
    | some place =>
      obtain ⟨i, w, o⟩ := place
      by_cases imports : w.direction = .imports <;>
        simp only [heldHandling, access, target, imports, ↓reduceIte, reclassified]

/-- The window table and both links at soft reset (R16, R133). -/
def State.tablesReset (s : State) : State :=
  ((s.modWindows Window.allStale).modLink .a fun k => .reset k.config).modLink .b fun k => .reset k.config

theorem State.tablesReset_eq (s : State) :
    s.tablesReset = { s with windows := s.tablesReset.windows, a := s.tablesReset.a, b := s.tablesReset.b } := by
  have table := State.modWindows_eq Window.allStale s
  unfold State.tablesReset
  generalize s.modWindows Window.allStale = t at table ⊢
  rw [table]
  rfl

@[simp] theorem State.tablesReset_host (s : State) : s.tablesReset.host = s.host := by rw [State.tablesReset_eq]

theorem State.tablesReset_window (s : State) (i : Index) : s.tablesReset.window i = (s.window i).map Window.allStale := by
  rw [State.tablesReset, State.modLink_window, State.modLink_window, State.modWindows_window]

theorem State.softReset_host (s : State) : s.softReset.host = s.tablesReset.softResetHost.host :=
  State.respond_host s.resetBlocks 0x10 .ok []

namespace State.HostLaw

variable {s t : State} (hs : s.HostLaw)
include hs

/-! ## Links -/

/-- A drain point rests on a WRITE record, and no link loses one that goes down (R85, R88). -/
theorem enterDown (l : LinkId) (r : Option FaultReason) : (s.enterDown l r).HostLaw := by
  have writes : ∀ x ∈ (s.link l).drainRecords, x.isMarker = false := fun x hx => by
    obtain ⟨_, _, _, _, _, _, _, word⟩ := hs.drainsAt hx
    obtain ⟨_, _, rfl⟩ := (Record.isWriteOf_iff _ _ _).1 word
    rfl
  have down := (hs.modLink (f := (·.goDown r)) ((s.link l).goDown_drainRecords r writes)).abortSweep l .linkLeftUp
  have stale := down.modWindows (f := Window.linkDown l) fun w => by
    unfold Window.linkDown
    split
    · simp [Window.importKey, Window.allStale]
    · rfl
  unfold State.enterDown
  cases r <;> exact stale.raise _

theorem faultLink (l : LinkId) (r : FaultReason) : (s.faultLink l r).HostLaw := by
  unfold State.faultLink
  split
  · exact hs.enterDown _ _
  · exact hs

theorem enterDraining (l : LinkId) : (s.enterDraining l).HostLaw := by
  have draining : (s.modLink l Link.draining).HostLaw := hs.modLink rfl
  exact draining.abortSweep _ _

theorem drainComplete (l : LinkId) : (s.drainComplete l).HostLaw := by
  unfold State.drainComplete
  dsimp only
  split
  · exact hs.enterDown _ _
  · exact hs

theorem enterUp (l : LinkId) (p : Peer) (hold : Bool) : (s.enterUp l p hold).HostLaw :=
  State.HostLaw.raise (hs.modLink rfl) _

theorem enterUpLoop (l : LinkId) : (s.enterUpLoop l).HostLaw := State.HostLaw.raise (hs.modLink rfl) _

theorem enterHunting (l : LinkId) : (s.enterHunting l).HostLaw := by
  unfold State.enterHunting
  exact hs.modLink rfl

theorem disableLink (l : LinkId) (force : Bool) : (s.disableLink l force).HostLaw := by
  unfold State.disableLink
  split
  · exact hs
  · exact hs.enterDown _ _
  · exact hs.enterDown _ _
  · split
    · exact (hs.enterDraining _).enterDown _ _
    · exact hs.enterDraining _
  · split
    · exact hs.enterDown _ _
    · exact hs
  · exact hs.enterDown _ _

/-! ## The builder and the transmitter -/

theorem frameBuild (l : LinkId) : (s.frameBuild l).HostLaw := by
  have cleared (is : List Index) : (s.clearNotices is).HostLaw := by
    induction is generalizing s with
    | nil => exact hs
    | cons i is ih => exact ih (hs.withNotice i false)
  unfold State.frameBuild
  split
  · split
    · unfold State.buildFrame
      exact (cleared _).modLink rfl
    · exact hs
  · exact hs

theorem driveIntn : s.driveIntn.HostLaw := hs.outside rfl rfl rfl rfl rfl rfl

theorem finish : s.finish.HostLaw :=
  ((((hs.drainComplete .a).drainComplete .b).modLink (Link.loopStart_drainRecords _)).modLink
    (Link.loopStart_drainRecords _)).roomTest.driveIntn

theorem goBack (l : LinkId) : (s.goBack l).HostLaw := by
  have back : (s.modLink l Link.goneBack).HostLaw := hs.modLink rfl
  unfold State.goBack
  dsimp only
  split
  · exact back.faultLink _ _
  · exact back

theorem receiveIdle (l : LinkId) (ack : Seq) (hold : Bool) : (s.receiveIdle l ack hold).HostLaw :=
  hs.modLink (Link.acknowledge_drainRecords _ _)

theorem receiveNak (l : LinkId) (expected : Seq) : (s.receiveNak l expected).HostLaw := by
  have acked := hs.modLink (f := (·.acknowledge expected)) (Link.acknowledge_drainRecords (s.link l) expected)
  unfold State.receiveNak
  dsimp only
  split
  · exact acked.goBack _
  · exact acked

theorem loopDeliver (l : LinkId) (f : Frame) : (s.loopDeliver l f).HostLaw := by
  have ended := hs.modLink (l := l) (f := fun k => { k with tx := { k.tx with output := .rest } }) rfl
  unfold State.loopDeliver
  dsimp only
  split
  · exact (ended.modLink (Link.acknowledge_drainRecords _ _)).offerFrame _ _ _
  · exact ended.modLink rfl

theorem endFrame (l : LinkId) : (s.endFrame l).HostLaw := by
  unfold State.endFrame
  split
  · split
    · exact hs.modLink (Link.chooseSymbol_drainRecords _)
    · exact hs.loopDeliver _ _
  · exact hs
  · exact hs

/-! ## The receiver -/

theorem lineLoss (l : LinkId) : (s.lineLoss l).HostLaw := by
  have lost : (s.modLink l Link.misaligned).HostLaw := hs.modLink rfl
  unfold State.lineLoss
  dsimp only
  split
  · exact lost.modLink rfl
  · exact lost.faultLink _ _
  · exact lost.faultLink _ _
  all_goals exact lost

theorem classifyFrame (l : LinkId) (seq seen : Seq) (items : List Record) :
    (s.classifyFrame l seq seen items).HostLaw := by
  unfold State.classifyFrame
  split
  · exact hs.offerFrame _ _ _
  · exact hs
  · exact hs.modLink (Link.requestNak_drainRecords _)

theorem receiveData (l : LinkId) (p : Payload) : (s.receiveData l p).HostLaw := by
  unfold State.receiveData
  split
  · exact hs
  · split
    · exact hs.modLink rfl
    · exact hs.modLink (Link.damage_drainRecords _)
    · exact State.HostLaw.classifyFrame (hs.modLink rfl) _ _ _ _

theorem symbolInTraining (l : LinkId) (sym : SymbolKind) : (s.symbolInTraining l sym).HostLaw := by
  unfold State.symbolInTraining
  split
  next id c y =>
    unfold State.helloInTraining
    split
    · exact hs.faultLink _ _
    · have recorded := hs.modLink (l := l) (f := Link.recorded { id, acceptance := if c then .sixteen else .eight }) rfl
      dsimp only
      split
      · exact recorded.enterUp _ _ _
      · exact recorded
  · unfold State.idleInTraining
    split
    · exact hs.enterUp _ _ _
    · exact hs
  all_goals exact hs

theorem symbolInUp (l : LinkId) (p : Payload) (sym : SymbolKind) : (s.symbolInUp l p sym).HostLaw := by
  have damaged := hs.modLink (f := Link.damageAssembly) (Link.damageAssembly_drainRecords (s.link l))
  unfold State.symbolInUp
  cases sym with
  | hello id c seenYou =>
    dsimp only
    split
    · exact damaged
    · exact damaged.faultLink _ _
  | idle ack next hold => exact (damaged.receiveIdle _ _ _).offerIdle _ _ _
  | nak expected => exact damaged.receiveNak _ _
  | frameStart seq seen count =>
    exact hs.modLink ((Link.beginFrame_drainRecords _ _ _ _ _).trans (Link.damageAssembly_drainRecords _))
  | data p => exact hs.receiveData _ _
  | malformed => exact hs

theorem alignedSymbol (l : LinkId) (p : Payload) (sym : SymbolKind) : (s.alignedSymbol l p sym).HostLaw := by
  unfold State.alignedSymbol
  split
  · exact hs.symbolInTraining _ _
  · exact hs.symbolInUp _ _ _
  · exact hs.symbolInUp _ _ _
  all_goals exact hs

theorem malformedSymbol (l : LinkId) : (s.malformedSymbol l).HostLaw := by
  have damaged := hs.modLink (f := Link.damageAssembly) (Link.damageAssembly_drainRecords (s.link l))
  unfold State.malformedSymbol
  dsimp only
  split
  · exact damaged.lineLoss _
  · exact damaged.modLink rfl

theorem huntSymbol (l : LinkId) (p : Payload) (sym : SymbolKind) : (s.huntSymbol l p sym).HostLaw := by
  have aligned : (s.modLink l Link.align).HostLaw := hs.modLink rfl
  unfold State.huntSymbol
  split
  · split
    · exact aligned.alignedSymbol _ _ _
    · exact hs.modLink rfl
  · exact hs.modLink rfl

theorem receiveSymbol (l : LinkId) (sym : Symbol) : (s.receiveSymbol l sym).HostLaw := by
  have heard : (if decodeSymbol sym = .malformed then s else s.modLink l Link.restartSilence).HostLaw := by
    split
    · exact hs
    · exact hs.modLink rfl
  unfold State.receiveSymbol
  dsimp only
  generalize (if decodeSymbol sym = .malformed then s else s.modLink l Link.restartSilence) = u at heard ⊢
  split
  · exact heard.huntSymbol _ _ _
  · split
    · exact heard.malformedSymbol _
    · exact State.HostLaw.alignedSymbol (heard.modLink rfl) _ _ _

theorem silenceExpiry (l : LinkId) : (s.silenceExpiry l).HostLaw := by
  unfold State.silenceExpiry
  split
  · exact hs.modLink rfl
  · exact hs.lineLoss _

/-! ## Sweeps -/

theorem queueOpen (l : LinkId) : (s.queueOpen l).HostLaw := by
  unfold State.queueOpen
  split
  · exact hs.modLink rfl
  · exact hs

theorem queueClose (l : LinkId) : (s.queueClose l).HostLaw := by
  unfold State.queueClose
  split
  next i w _ =>
    have closed := hs.modLink (l := l) (f := fun k =>
      { k.enqueue (.record (.sweepClose w.tag)) with sweep := { k.sweep with active := none } }) rfl
    exact (closed.withExport i .inStep).raise _
  next => exact hs

theorem startSweep (i : Index) (w : Window) : (s.startSweep i w).HostLaw := by
  have started : ((s.modWindow i (·.withExport .sweeping)).modLink w.link fun k =>
      { k with sweep := { k.sweep with active := some { phase := .opening, window := i, next := 0 } } }).HostLaw :=
    (hs.withExport i .sweeping).modLink rfl
  have opened := started.queueOpen w.link
  unfold State.startSweep State.holdBecomesCapturing
  dsimp only
  split
  · exact opened.withHost rfl rfl rfl
  · exact opened

/-! ## Requests -/

theorem markTaken : s.markTaken.HostLaw := by
  rw [State.markTaken_eq]
  exact hs.outside rfl rfl rfl rfl rfl rfl

theorem respond (code : Byte) (st : Status) (d : List Byte) : (s.respond code st d).HostLaw := by
  rw [State.respond_eq]
  exact hs.outside rfl rfl rfl rfl rfl rfl

theorem respondOk (code : Byte) : (s.respondOk code).HostLaw := hs.respond _ _ _

theorem refuse (code : Byte) (r : Reason) : (s.refuse code r).HostLaw := hs.respond _ _ _

theorem partConfigSet (f : PartConfigFields) : (s.partConfigSet f).HostLaw := by
  unfold State.partConfigSet
  split
  · exact hs.refuse _ _
  next cfg _ =>
    have configured : ({ s with config := cfg } : State).HostLaw := hs.outside rfl rfl rfl rfl rfl rfl
    split
    · exact hs.refuse _ _
    · exact (configured.respondOk _).driveIntn

theorem windowSet (index : Byte) (f : WindowFields) : (s.windowSet index f).HostLaw := by
  unfold State.windowSet
  split
  · exact hs.refuse _ _
  · split_ifs with valid
    · exact hs.refuse _ _
    · split
      · exact hs.refuse _ _
      · split_ifs
        · exact hs.refuse _ _
        · exact hs.refuse _ _
        · exact (hs.setOffEntry (by simpa using valid) _).respondOk _

theorem windowClear (index : Byte) : (s.windowClear index).HostLaw := by
  unfold State.windowClear
  split
  · exact hs.refuse _ _
  · split
    · exact hs.respondOk _
    · exact ((hs.clearWindow _ _).respondOk _).finish

theorem windowGet (index : Byte) : (s.windowGet index).HostLaw := by
  unfold State.windowGet
  split
  · exact hs.refuse _ _
  · exact hs.respond _ _ _

theorem linkSet (link : Byte) (f : LinkFields) : (s.linkSet link f).HostLaw := by
  unfold State.linkSet
  split
  · exact hs.refuse _ _
  · split
    · exact hs.refuse _ _
    · split
      · exact hs.refuse _ _
      · exact State.HostLaw.respondOk (hs.modLink rfl) _

theorem linkEnable (link : Byte) : (s.linkEnable link).HostLaw := by
  unfold State.linkEnable
  split
  · exact hs.refuse _ _
  · split
    · exact hs.refuse _ _
    · split
      · exact hs.refuse _ _
      · dsimp only
        split
        · exact ((hs.enterHunting _).respondOk _).finish
        · exact ((hs.enterUpLoop _).respondOk _).finish

theorem linkDisable (link force : Byte) : (s.linkDisable link force).HostLaw := by
  unfold State.linkDisable
  split
  · exact hs.refuse _ _
  · exact ((hs.disableLink _ _).respondOk _).finish

theorem linkGet (link : Byte) : (s.linkGet link).HostLaw := by
  unfold State.linkGet
  split
  · exact hs.refuse _ _
  · exact hs.respond _ _ _

theorem flush (link : Byte) : (s.flush link).HostLaw := by
  unfold State.flush
  split
  · exact hs.refuse _ _
  · split
    · exact (hs.setFlushDue _).respondOk _
    · exact hs.refuse _ _

theorem sweepStart (index : Byte) : (s.sweepStart index).HostLaw := by
  unfold State.sweepStart
  split
  · exact hs.refuse _ _
  · split
    · exact hs.refuse _ _
    · split_ifs
      iterate 4 exact hs.refuse _ _
      exact ((hs.startSweep _ _).respondOk _).finish

theorem sweepAbort (index : Byte) : (s.sweepAbort index).HostLaw := by
  unfold State.sweepAbort
  split
  · exact hs.refuse _ _
  · split
    · exact hs.refuse _ _
    · split
      · exact ((hs.abortSweep _ _).respondOk _).finish
      · exact hs.refuse _ _

theorem eventPop : s.eventPop.HostLaw := by
  unfold State.eventPop
  split
  · exact hs.respond _ _ _
  next e rest _ =>
    have popped : ({ s with events := rest } : State).HostLaw := hs.outside rfl rfl rfl rfl rfl rfl
    exact (popped.respond _ _ _).driveIntn

theorem eventClear : s.eventClear.HostLaw := by
  have emptied : ({ s with events := [], overflow := false } : State).HostLaw := hs.outside rfl rfl rfl rfl rfl rfl
  exact (emptied.respondOk 0x0F).driveIntn

/-- The queues are emptied, so no drain point is left: a held access completes or comes to stand in CLAIMING (R145). -/
theorem softResetHost {u : State} (host : u.host = s.host) (port : u.port = s.port) (reset : u.inReset = s.inReset)
    (undrained : ∀ l, (u.link l).drainRecords = []) : u.softResetHost.HostLaw := by
  have stays {h : HostPort} (waits : u.host.phase ≠ .waitDrain) (phase : h.phase = u.host.phase)
      (access : h.access = u.host.access) : ({ u with host := h } : State).HostLaw := by
    rw [host] at waits phase access
    refine hs.of_frame phase (by rw [access]) (by rw [port]) (by rw [reset]; exact id) (fun l => ?_)
      fun h => absurd h waits
    rw [State.withHost_link, undrained, hs.undrained waits]
  by_cases held : u.host.phase.held = true
  · have busy : s.host.phase ≠ .idle := by rintro idle; rw [host, idle] at held; cases held
    have elsewhere : s.host.phase ≠ .inMemory := by rintro inMemory; rw [host, inMemory] at held; cases held
    have clear : u.HostClear := ⟨by rw [port]; exact mt hs.inMemory.2 elsewhere, undrained⟩
    rw [State.softResetHost_held held]
    cases u.heldHandling with
    | dropped | refused => exact clear.completeHost _ _
    | plain | capturing =>
      exact clear.claimHost (by rw [reset, hs.running busy]) (by rw [host, hs.access_isSome busy]) _
  · cases phase : u.host.phase with
    | idle =>
      simp only [State.softResetHost, phase]
      exact stays (by rw [phase]; decide) rfl rfl
    | inMemory =>
      simp only [State.softResetHost, phase]
      exact stays (by rw [phase]; decide) phase.symm rfl
    | waitDrain | waitRoom | claiming => exact absurd (by rw [phase]; rfl) held

theorem softReset : s.softReset.HostLaw := by
  have blocks : s.resetBlocks.HostLaw := by
    refine State.HostLaw.outside (hs.softResetHost s.tablesReset_host ?_ ?_ fun | .a => rfl | .b => rfl)
      rfl rfl rfl rfl rfl rfl
    · rw [State.tablesReset_eq]
    · rw [State.tablesReset_eq]
  exact (blocks.respondOk 0x10).driveIntn

theorem badCommand (code : Byte) : (s.badCommand code).HostLaw := by
  unfold State.badCommand
  split
  · exact hs.refuse _ _
  · exact hs

/-- Taking a request keeps the law, whatever the request (R153, Table 12-4). -/
theorem request (c : Instr) : (s.request c).HostLaw := by
  cases c with
  | nop => exact hs.markTaken
  | partInfo | partConfigGet => exact hs.respond _ _ _
  | partConfigSet f => exact hs.partConfigSet _
  | windowSet index f => exact hs.windowSet _ _
  | windowClear index => exact hs.windowClear _
  | windowGet index => exact hs.windowGet _
  | linkSet link f => exact hs.linkSet _ _
  | linkEnable link => exact hs.linkEnable _
  | linkDisable link force => exact hs.linkDisable _ _
  | linkGet link => exact hs.linkGet _
  | flush link => exact hs.flush _
  | sweepStart index => exact hs.sweepStart _
  | sweepAbort index => exact hs.sweepAbort _
  | eventPop => exact hs.eventPop
  | eventClear => exact hs.eventClear
  | softReset => exact hs.softReset
  | badCommand code => exact hs.badCommand _
  | _ => exact hs

theorem endUntaken (clocked : List Byte) : (s.endUntaken clocked).HostLaw := by
  unfold State.endUntaken
  split
  · exact hs
  · split
    · split
      · exact hs.request _
      · exact hs
    · exact hs.outside rfl rfl rfl rfl rfl rfl

/-! ## Commands and steps -/

theorem take {act : State → State} (ha : (act s).HostLaw) (h : s.take act = .next t) : t.HostLaw := by
  cases h
  split
  · exact ha
  · exact hs

theorem happening {can : Bool} {act : State → State} (ha : s.inReset = false → can = true → (act s).HostLaw)
    (h : s.happening can act = .next t) : t.HostLaw := by
  cases h
  split
  next may =>
    simp only [Bool.and_eq_true, Bool.not_eq_true'] at may
    exact (ha may.1 may.2).finish
  next => exact hs

theorem tick : s.tick.HostLaw := by
  unfold State.tick
  split
  · exact hs
  · have ticked : ((s.modLink .a Link.tick).modLink .b Link.tick).HostLaw := State.HostLaw.modLink (hs.modLink rfl) rfl
    have timed := ticked.withHost (h := { s.host with holdTimer := s.host.holdTimer.tick }) rfl rfl rfl
    exact timed.outside rfl rfl rfl rfl rfl rfl

omit hs in
/-- Hardware reset leaves the port IDLE and the queues empty, and an outstanding transaction to nobody (R146, R152). -/
theorem hardwareReset (s : State) (spi : SpiTransaction) : ({ State.reset with
    pending := s.pending, inReset := true, port := s.port.map fun t => { t with owner := .nobody }, spi } :
      State).HostLaw where
  access := rfl
  inMemory := iff_of_false nofun (by cases s.port <;> nofun)
  drainPoint := rfl
  drainWord := fun | .a => nofun | .b => nofun
  inReset _ := rfl

/-- Every command keeps the law: a request by its effect, a happening by its act and what every happening ends with. -/
theorem exec (c : Instr) (h : exec c s = .next t) : t.HostLaw := by
  cases c with
  | transactionBegin =>
    cases h
    split
    · exact hs.outside rfl rfl rfl rfl rfl rfl
    · exact hs
    · exact hs
  | transactionEnd clocked =>
    cases h
    split
    · exact (hs.endUntaken clocked).outside rfl rfl rfl rfl rfl rfl
    all_goals exact hs.outside rfl rfl rfl rfl rfl rfl
  | hardwareReset =>
    cases h
    exact State.HostLaw.hardwareReset s _
  | resetEnd =>
    cases h
    exact hs.of_frame rfl rfl Iff.rfl nofun (fun | .a => rfl | .b => rfl) fun _ _ _ => id
  | memoryCompletion status =>
    simp only [Machine.exec, execMemoryCompletion] at h
    split at h
    · cases h
      exact hs
    next p port =>
      cases h
      split
      next lasting => exact hs.withPort (mt hs.inMemory.2 (by rw [hs.inReset lasting]; decide)) nofun
      next => exact (hs.complete port _).finish
  | hostAccessArrival acc =>
    simp only [Machine.exec, execHostAccessArrival] at h
    exact hs.happening (fun running idle => hs.arrive running (of_decide_eq_true idle) acc) h
  | arbiterChoice =>
    simp only [Machine.exec, execArbiterChoice] at h
    exact hs.happening (fun _ _ => hs.arbiterChoice) h
  | controlRecordDecision l =>
    simp only [Machine.exec, execControlRecordDecision] at h
    exact hs.happening (fun _ _ => hs.decideControl l) h
  | frameBuild l =>
    simp only [Machine.exec, execFrameBuild] at h
    exact hs.happening (fun _ _ => hs.frameBuild l) h
  | sweepOpenQueued l =>
    simp only [Machine.exec, execSweepOpenQueued] at h
    exact hs.happening (fun _ _ => hs.queueOpen l) h
  | sweepCloseQueued l =>
    simp only [Machine.exec, execSweepCloseQueued] at h
    exact hs.happening (fun _ _ => hs.queueClose l) h
  | flushTimerExpiry l =>
    simp only [Machine.exec, execFlushTimerExpiry] at h
    exact hs.happening (fun _ _ => hs.modLink rfl) h
  | transmitChoicePoint l =>
    simp only [Machine.exec, execTransmitChoicePoint] at h
    exact hs.happening (fun _ _ => hs.modLink (Link.choicePoint_drainRecords _ _)) h
  | frameEnd l =>
    simp only [Machine.exec, execFrameEnd] at h
    exact hs.happening (fun _ _ => hs.endFrame l) h
  | ackTimerExpiry l =>
    simp only [Machine.exec, execAckTimerExpiry] at h
    exact hs.happening (fun _ _ => hs.goBack l) h
  | peerHoldLimitExpiry l =>
    simp only [Machine.exec, execPeerHoldLimitExpiry] at h
    exact hs.happening (fun _ _ => hs.faultLink l _) h
  | trainingTimerExpiry l =>
    simp only [Machine.exec, execTrainingTimerExpiry] at h
    exact hs.happening (fun _ _ => hs.faultLink l _) h
  | symbolArrival l sym =>
    simp only [Machine.exec, execSymbolArrival] at h
    exact hs.happening (fun _ _ => hs.receiveSymbol l sym) h
  | silenceTimerExpiry l =>
    simp only [Machine.exec, execSilenceTimerExpiry] at h
    exact hs.happening (fun _ _ => hs.silenceExpiry l) h
  | captureHoldExpiry =>
    simp only [Machine.exec, execCaptureHoldExpiry] at h
    exact hs.happening (fun _ can => hs.holdExpiry (of_decide_eq_true (Bool.and_eq_true_iff.1 can).1)) h
  | nop | partInfo | partConfigSet | partConfigGet | windowSet | windowClear | windowGet | linkSet | linkEnable
  | linkDisable | linkGet | flush | sweepStart | sweepAbort | eventPop | eventClear | softReset | badCommand =>
    rw [exec_of_request rfl] at h
    exact hs.take (hs.request _) h

end State.HostLaw

/-- Settles O57: a step is a command on the state with the queue's rest, or a tick. An operation keeps what the law speaks of,
or it moves the access on together with its transaction or its drain point. -/
theorem stepKeepsHostLaw : Obligations.StepKeepsHostLaw := by
  intro s t hs h
  unfold step at h
  split at h
  next c rest _ =>
    have queued : ({ s with pending := rest } : State).HostLaw := hs.outside rfl rfl rfl rfl rfl rfl
    exact queued.exec c h
  next =>
    cases h
    exact hs.tick

end Sys2Proof.Machine
end

section
/-! STATEMENTS. The accesses of the master: arrival, the expiry of the hold timer, and soft reset (R135 to R141, R145). -/

namespace Sys2Proof.Machine

/-! ## Arrival -/

section
variable {s : State} {acc : Access} {i : Index} {w : Window}

theorem exec_hostAccessArrival (s : State) (acc : Access) :
    exec (.hostAccessArrival acc) s = s.happening (decide (s.host.phase = .idle)) (·.arrive acc) := rfl

theorem exec_hostAccessArrival_idle (running : s.inReset = false) (idle : s.host.phase = .idle) :
    exec (.hostAccessArrival acc) s = .next (s.arrive acc).finish := by
  rw [exec_hostAccessArrival, State.happening_of running (decide_eq_true idle)]

/-- A word in no region is found at no window (R10). -/
theorem State.windowAt_eq_none {addr : WordAddr}
    (nowhere : ∀ i, ∀ w ∈ s.window i, ¬ (w.base ≤ 4 * addr.toNat ∧ 4 * addr.toNat < w.base + w.size)) :
    s.windowAt addr = none := by
  refine List.find?_eq_none.2 fun i _ holds => ?_
  cases window : s.window i with
  | none => simp [window] at holds
  | some w => exact nowhere i w window (by simpa [window, Window.holds] using holds)

theorem State.TableLaw.importSide_isSome (ht : s.TableLaw) (window : s.window i = some w) :
    w.importSide.isSome = true ↔ w.direction ≠ .exports := by
  rw [(ht.legal i w window).importSide, Direction.hasImport_iff]

/-- At an exporting window, and where no queued WRITE record is for the word, an access proceeds (R85). -/
theorem State.ArrivesAt.arrive_proceeds (arrives : s.ArrivesAt acc i w) (ht : s.TableLaw)
    (free : w.direction = .exports ∨ ¬ (s.link w.link).HasWriteFor w.tag (w.offsetOf acc.addr)) :
    s.arrive acc = (s.hostAt acc (.window i (w.offsetOf acc.addr)) .idle none).proceedHost := by
  rw [State.arrive_window arrives.lanes (State.windowAt_of ht arrives.window arrives.above arrives.below) arrives.window,
    if_neg]
  rwa [ht.importSide_isSome arrives.window, Link.hasWriteFor_iff, not_and_or, not_not]

/-- At an importing window an access waits behind a queued WRITE record for its word (R85). -/
theorem State.ArrivesAt.arrive_waits (arrives : s.ArrivesAt acc i w) (ht : s.TableLaw) (imports : w.direction ≠ .exports)
    (queued : (s.link w.link).HasWriteFor w.tag (w.offsetOf acc.addr)) : s.arrive acc =
      (s.hostAt acc (.window i (w.offsetOf acc.addr)) .idle none).waitDrain w (w.offsetOf acc.addr) := by
  rw [State.arrive_window arrives.lanes (State.windowAt_of ht arrives.window arrives.above arrives.below) arrives.window,
    if_pos ⟨(ht.importSide_isSome arrives.window).2 imports, (Link.hasWriteFor_iff _ _ _).2 queued⟩]

end

/-- The drain point goes on the newest record for the word (R85). -/
theorem State.modLink_drainMarked {s : State} {l : LinkId} {t : Tag} {o : Offset} {pre post : List ApplyEntry} {m : LaneMask}
    {d : Word} {seen : Option Seq} {drain : Bool}
    (queue : (s.link l).apply.queue = pre ++ (⟨.write t o m d, seen, drain⟩ : ApplyEntry) :: post)
    (newest : ∀ e ∈ post, e.record.isWriteOf t o = false) : s.modLink l (Link.drainMarked t o) =
      s.modLink l fun k => { k with apply := { k.apply with queue := pre ++ ⟨.write t o m d, seen, true⟩ :: post } } := by
  apply State.modLink_congr
  rw [Link.drainMarked, queue, markNewest_split t o pre m d seen drain post newest]

/-- Settles O28: by the phase, the lanes and the lookup; at a window by its direction and the records queued for the word. -/
theorem arrivalClassified : Obligations.ArrivalClassified := by
  intro s acc running
  refine ⟨fun busy => ?_, fun idle noLanes => ?_, fun idle lanes nowhere => ?_, fun i w ht arrives => ?_⟩
  · rw [exec_hostAccessArrival, State.happening_not (decide_eq_false busy)]
  · rw [exec_hostAccessArrival_idle running idle, State.arrive_noLanes noLanes]
  · rw [exec_hostAccessArrival_idle running idle, State.arrive_noWindow lanes (State.windowAt_eq_none nowhere)]
  · rw [exec_hostAccessArrival_idle running arrives.idle]
    refine ⟨fun free => ?_, fun imports pre m d seen drain post queue newest => ?_⟩
    · rw [arrives.arrive_proceeds ht free]
      exact ⟨_, rfl, State.proceedHost_proceeded rfl rfl arrives.window⟩
    · obtain ⟨h, waits⟩ := s.hostAt_waitDrain acc (.window i (w.offsetOf acc.addr)) w (w.offsetOf acc.addr)
      have queued : (s.link w.link).HasWriteFor w.tag (w.offsetOf acc.addr) :=
        ⟨m, d, seen, drain, queue ▸ List.mem_append_right _ List.mem_cons_self⟩
      rw [arrives.arrive_waits ht imports queued, waits,
        State.modLink_drainMarked (o := w.offsetOf acc.addr) queue newest]
      exact ⟨h, rfl⟩

/-! ## The expiry of the hold timer -/

theorem exec_captureHoldExpiry (s : State) : exec .captureHoldExpiry s =
    s.happening (decide (s.host.phase = .waitRoom) && s.host.holdTimer.hasRunOut) State.holdExpiry := rfl

theorem State.SweepLaw.withHost {s : State} (hs : s.SweepLaw) (h : HostPort) : ({ s with host := h } : State).SweepLaw :=
  hs.congr rfl (s.withHost_link h)

theorem State.holdExpiry_of {s : State} {i : Index} {o : Offset} {w : Window}
    (target : s.host.classification = some (.window i o)) (window : s.window i = some w) :
    s.holdExpiry = s.hostPlain.localStale i .captureTimeout := by
  simp only [holdExpiry, hostTarget, target, window]
  rfl

/-- Settles O29: the write is plain, and its window meets the local cause CAPTURE_TIMEOUT. -/
theorem holdExpiryPassesUncaptured : Obligations.HoldExpiryPassesUncaptured := by
  intro s running
  refine ⟨fun i o w phase out target window sweep => ?_, fun other => ?_⟩
  · have occurs : (decide (s.host.phase = .waitRoom) && s.host.holdTimer.hasRunOut) = true := by
      rw [decide_eq_true phase, (Timer.hasRunOut_iff _).2 out, Bool.and_self]
    rw [exec_captureHoldExpiry, State.happening_of running occurs, State.holdExpiry_of target window]
    exact ⟨_, rfl, State.localStale_lost (s := s.hostPlain) window (sweep.withHost _) (by decide)⟩
  · rw [exec_captureHoldExpiry]
    rcases other with phase | timer
    · exact State.happening_not (by rw [decide_eq_false phase, Bool.false_and]) _
    · exact State.happening_not_runOut timer _ _

/-! ## Soft reset -/

namespace State

variable {s : State} {acc : Access} {i : Index} {o : Offset} {w : Window}

theorem heldHandling_of (access : s.host.access = some acc) (target : s.host.classification = some (.window i o))
    (window : s.window i = some w) :
    s.heldHandling = if w.direction = .imports then importHandling w.policy acc.kind else .plain := by
  simp [heldHandling, access, hostTarget, target, window]

theorem heldHandling_plain (access : s.host.access = some acc)
    (passes : ∀ i o w, s.host.classification = some (.window i o) → s.window i = some w →
      w.direction = .imports → importHandling w.policy acc.kind = .plain) : s.heldHandling = .plain := by
  unfold heldHandling
  split
  next acc' j w o access' target =>
    obtain rfl := Option.some.inj (access.symm.trans access')
    split
    next imports =>
      unfold hostTarget at target
      split at target
      next classified =>
        obtain ⟨v, window, triple⟩ := Option.map_eq_some_iff.1 target
        cases triple
        exact passes _ _ _ classified window imports
      next => cases target
    next => rfl
  next => rfl

end State

/-- Settles O25: the policy of an importing window decides a held write, and every other access is plain; the table that soft
reset leaves has the directions and the policies it had. -/
theorem softResetReclassifies : Obligations.SoftResetReclassifies := by
  intro s out acc taking held access
  have host : s.softReset.host = (s.tablesReset.reclassified s.tablesReset.heldHandling).host := by
    rw [State.softReset_host, State.softResetHost_held (by rwa [State.tablesReset_host])]
  have access' : s.tablesReset.host.access = some acc := by rwa [State.tablesReset_host]
  refine ⟨s.softReset, State.take_of_taking taking (·.softReset), fun i o w d target window imports write => ?_,
    fun passes => ?_⟩
  · have handling := State.heldHandling_of access' (by rwa [State.tablesReset_host])
      ((s.tablesReset_window i).trans (congrArg (Option.map Window.allStale) window))
    rw [if_pos (show w.allStale.direction = .imports from imports), write] at handling
    rw [host, handling]
    constructor <;> intro policy <;> simp only [Window.allStale, policy] <;> rfl
  · have plain : s.tablesReset.heldHandling = .plain := by
      refine State.heldHandling_plain access' fun i o v target entry imports => ?_
      rw [State.tablesReset_host] at target
      rw [State.tablesReset_window] at entry
      obtain ⟨w, window, rfl⟩ := Option.map_eq_some_iff.1 entry
      rcases passes with read | nowhere | passes
      · rw [read]
        rfl
      · cases nowhere.symm.trans target
      · have policy := (passes i o w target window).resolve_left (not_not.2 imports)
        simp only [Window.allStale, policy]
        cases acc.kind <;> rfl
    rw [host, plain, State.reclassified, State.claimHost_host, State.tablesReset_host]

end Sys2Proof.Machine
end

section
/-! STATEMENTS. The host claim's grant, with the capture of a write, and the completion of its transaction (R142, R143,
R147). -/

namespace Sys2Proof.Machine

/-! ## The word of a merged record (R24) -/

theorem laneBits_lane : ∀ (m : LaneMask) (lane : Fin 4),
    (laneBits m).extractLsb' (8 * lane.val) 8 = if m.getLsbD lane.val then BitVec.allOnes 8 else 0#8 := by decide

theorem not_laneBits : ∀ m : LaneMask, ~~~ laneBits m = laneBits (~~~ m) := by decide

/-- A merge takes the lanes in the mask from the new word and the others from the old one. -/
theorem mergeLanes_lane (m : LaneMask) (new old : Word) (lane : Fin 4) :
    (mergeLanes m new old).extractLsb' (8 * lane.val) 8 =
      if m.getLsbD lane.val then new.extractLsb' (8 * lane.val) 8 else old.extractLsb' (8 * lane.val) 8 := by
  have others : (~~~ m).getLsbD lane.val = !m.getLsbD lane.val := by simp
  rw [mergeLanes, not_laneBits, BitVec.extractLsb'_or, BitVec.extractLsb'_and, BitVec.extractLsb'_and, laneBits_lane,
    laneBits_lane, others]
  cases m.getLsbD lane.val <;>
    simp only [Bool.not_true, Bool.not_false, Bool.false_eq_true, ↓reduceIte, BitVec.and_allOnes, BitVec.and_zero,
      BitVec.or_zero, BitVec.zero_or]

/-- A merge goes into the newest complete WRITE record for the word. -/
theorem mergeNewest_split {t : Tag} {o : Offset} {post : List CaptureEntry}
    (newest : ∀ m d, CaptureEntry.record (.write t o m d) ∉ post) (pre : List CaptureEntry) (m m' : LaneMask)
    (d d' : Word) :
    mergeNewest t o m d (pre ++ .record (.write t o m' d') :: post) =
      pre ++ .record (.write t o (m' ||| m) (mergeLanes m d d')) :: post := by
  have none_later : post.any (·.isCompleteWriteOf t o) = false := by
    rw [List.any_eq_false]
    intro e he complete
    obtain ⟨m, d, rfl⟩ := (e.isCompleteWriteOf_iff t o).1 complete
    exact newest m d he
  have complete : (CaptureEntry.record (.write t o m' d')).isCompleteWriteOf t o = true :=
    (CaptureEntry.isCompleteWriteOf_iff _ t o).2 ⟨m', d', rfl⟩
  induction pre with
  | nil =>
    simp only [List.nil_append, mergeNewest, none_later, complete, CaptureEntry.merge, Bool.false_eq_true, ↓reduceIte]
  | cons e pre ih =>
    have later : (pre ++ .record (.write t o m' d') :: post).any (·.isCompleteWriteOf t o) = true :=
      List.any_eq_true.2 ⟨_, List.mem_append_right _ List.mem_cons_self, complete⟩
    rw [List.cons_append, mergeNewest, if_pos later, ih, List.cons_append]

/-! ## The capture of a write (R21, R23, R93) -/

namespace Link

variable (k : Link) (w : Window) (o : Offset)

/-- The pending entries after a capture of the word: those of a SHARED window at UNKNOWN and SENIOR rank note it (R93). -/
def captureNoted : ConflictUnit :=
  if w.direction = .shared ∧ (k.control.rank = .unknown ∨ k.control.rank = .senior) then
    { k.conflict with table := k.conflict.capturedTable w.tag o }
  else k.conflict

theorem noted_captureNoted : k.noted w o = { k with conflict := k.captureNoted w o } := by
  rw [noted_eq, noted_conflict, captureNoted]

end Link

theorem State.captureWrite_eq (s : State) (w : Window) (o : Offset) (m : LaneMask) (d : Word) :
    s.captureWrite w o m d = s.modLink w.link fun k => Link.noted w o (if k.mergesInto w o then
        { k with capture := { k.capture with queue := mergeNewest w.tag o m d k.capture.queue } }
      else k.enqueue (.record (.write w.tag o m d))) := by
  rw [State.captureWrite, State.noteCapture, State.modLink_modLink]
  rfl

section
variable {s : State} {w : Window} {o : Offset}

/-- A write that merges into no record enters at the tail (R23). -/
theorem State.captureWrite_enters (m : LaneMask) (d : Word) (apart : w.coalesce ≠ some true ∨
      ∀ m' d', CaptureEntry.record (.write w.tag o m' d') ∉ (s.link w.link).capture.queue) :
    s.captureWrite w o m d = s.modLink w.link fun k =>
      { k.appended (.record (.write w.tag o m d)) with conflict := k.captureNoted w o } := by
  have enters : ¬ (s.link w.link).mergesInto w o = true := by
    rw [Link.mergesInto_iff]
    rintro ⟨coalesces, m', d', there⟩
    rcases apart with apart | apart
    · exact apart coalesces
    · exact apart m' d' there
  rw [captureWrite_eq]
  apply modLink_congr
  rw [if_neg enters, Link.enqueue_eq, Link.noted_captureNoted]
  rfl

/-- A write to a coalescing window merges into the newest complete WRITE record for its word (R24). -/
theorem State.captureWrite_merges (m : LaneMask) (d : Word) {pre post : List CaptureEntry} {m' : LaneMask} {d' : Word}
    (coalesces : w.coalesce = some true)
    (queue : (s.link w.link).capture.queue = pre ++ .record (.write w.tag o m' d') :: post)
    (newest : ∀ m d, CaptureEntry.record (.write w.tag o m d) ∉ post) :
    s.captureWrite w o m d = s.modLink w.link fun k => { k with
      capture := { k.capture with
        queue := pre ++ .record (.write w.tag o (m' ||| m) (mergeLanes m d d')) :: post }
      conflict := k.captureNoted w o } := by
  have merges : (s.link w.link).mergesInto w o = true :=
    (Link.mergesInto_iff _ w o).2 ⟨coalesces, m', d', queue ▸ List.mem_append_right _ List.mem_cons_self⟩
  rw [captureWrite_eq]
  apply modLink_congr
  rw [if_pos merges, Link.noted_captureNoted, queue, mergeNewest_split newest]
  rfl

end

/-! ## The grant -/

theorem bump_eq (presented : Bool) (share n : Nat) :
    bump presented share n = if presented = true ∧ n < share then n + 1 else n := by
  simp only [bump, Bool.and_eq_true, decide_eq_true_eq]

namespace State

/-- The machine with the transaction of the access issued and the access IN_MEMORY (R142, R147). -/
def hostGranted (s : State) (acc : Access) (captured : Bool) : State :=
  { s.countHostGrant with
    port := some { owner := .host, kind := acc.kind, addr := acc.addr, mask := acc.mask }
    host := { s.host with phase := .inMemory, captured, holdTimer := .stopped } }

variable {s : State} {acc : Access}

theorem hostGranted_capture (captured : Bool) (l : LinkId) :
    ((s.hostGranted acc captured).link l).capture = (s.link l).capture := by cases l <;> rfl

theorem arbiterChoice_host (free : s.port = none) (choice : s.choose = some .host) : s.arbiterChoice = s.grantHost := by
  rw [arbiterChoice_eq, arbitrate]
  simp [free, choice]

theorem grantHost_uncaptured (access : s.host.access = some acc)
    (uncaptured : s.host.handling ≠ some .capturing ∨ s.hostCaptureMade = false) :
    s.grantHost = s.hostGranted acc false := by
  have none_made : (decide (s.host.handling = some .capturing) && s.hostCaptureMade) = false := by
    rw [Bool.and_eq_false_iff, decide_eq_false_iff_not]
    exact uncaptured
  simp only [grantHost, access, none_made, hostGranted]

theorem grantHost_captured {i : Index} {o : Offset} {w : Window} {d : Word} (access : s.host.access = some acc)
    (capturing : s.host.handling = some .capturing) (write : acc.kind = .write d)
    (target : s.host.classification = some (.window i o)) (window : s.window i = some w) (made : s.captureMade w = true) :
    s.grantHost = (s.hostGranted acc true).captureWrite w o acc.mask d := by
  have host : s.hostTarget = some (i, w, o) := by simp only [hostTarget, target, window, Option.map_some]
  have captured : (decide (s.host.handling = some .capturing) && s.hostCaptureMade) = true := by
    rw [Bool.and_eq_true, decide_eq_true_iff, hostCaptureMade, host]
    exact ⟨capturing, made⟩
  simp only [grantHost, access, captured, write, host, hostGranted]

end State

/-- Settles O33: the grant issues the transaction; a capture that is made merges or enters at the tail. -/
theorem hostGrant : Obligations.HostGrant := by
  intro s acc running free choice access count granted
  have issued (captured : Bool) : s.hostGranted acc captured = granted captured := by
    simp only [State.hostGranted, State.countHostGrant, bump_eq]
    rfl
  rw [exec_arbiterChoice_of running free choice, State.arbiterChoice_host free choice]
  refine ⟨fun uncaptured => ?_, fun i o w d capturing write target window side linkRuns => ?_⟩
  · rw [State.grantHost_uncaptured access uncaptured, issued]
  · have made : s.captureMade w = true := (s.captureMade_iff w).2 ⟨side, linkRuns⟩
    rw [State.grantHost_captured access capturing write target window made, ← issued]
    have same := State.hostGranted_capture (s := s) (acc := acc) true w.link
    intro entries
    refine ⟨fun apart => ?_, fun pre m' d' post coalesces queue newest =>
      ⟨mergeLanes acc.mask d d', mergeLanes_lane acc.mask d d', ?_⟩⟩
    · rw [State.captureWrite_enters _ _ (by rwa [same])]
      rfl
    · rw [State.captureWrite_merges _ _ coalesces (by rw [same, queue]) newest]
      rfl

/-! ## The completion -/

theorem State.ExportLost.host {s u : State} {i : Index} {w : Window} {c : Cause} (h : s.ExportLost u i w c) :
    u.host = s.host := by
  cases side : w.exportSide with
  | none => rw [h.otherwise (.inr side)]
  | some x =>
    cases x with
    | stale => rw [h.otherwise (.inl side)]
    | sweeping => simp [h.sweeping side]
    | inStep =>
      cases link : s.linkState w.link with
      | hunting | training | up => simp [h.inStepNotice side (by simp [link])]
      | draining | disabled | fault => simp [h.inStepSilent side (by simp [link])]

/-- The completion of the access: the port is free, the access ends, the room test, the new choice (R147). -/
theorem exec_memoryCompletion_host {s : State} {p : PortTransaction} (running : s.inReset = false)
    (port : s.port = some p) (owner : p.owner = .host) (status : MemStatus) : exec (.memoryCompletion status) s =
      .next (({ s with port := none } : State).completeHostAccess p.kind status).roomTest.arbiterChoice.finish := by
  simp only [exec, execMemoryCompletion, port, running, State.complete, State.completeOwner, owner, Bool.false_eq_true,
    if_false]

namespace State

variable {s : State}

theorem completeHostAccess_ok (kind : AccessKind) (d : Word) :
    s.completeHostAccess kind (.ok d) = s.hostEnds false (if kind = .read then some d else none) := rfl

theorem completeHostAccess_fault_uncaptured (kind : AccessKind)
    (uncaptured : s.host.captured = false ∨ ∀ i o, s.host.classification ≠ some (.window i o)) :
    s.completeHostAccess kind .fault = s.hostEnds true none := by
  have nowhere : (if s.host.captured then s.hostTarget else none) = none := by
    rcases uncaptured with uncaptured | nowhere
    · simp [uncaptured]
    · split
      · unfold hostTarget
        split
        next i o target => exact absurd target (nowhere i o)
        next => rfl
      · rfl
  simp only [completeHostAccess, nowhere]
  rfl

theorem completeHostAccess_fault_captured (kind : AccessKind) {i : Index} {o : Offset} {w : Window}
    (captured : s.host.captured = true) (target : s.host.classification = some (.window i o))
    (window : s.window i = some w) :
    s.completeHostAccess kind .fault = (s.hostEnds true none).localStale i .memoryFault := by
  simp only [completeHostAccess, captured, ↓reduceIte, hostTarget, target, window, Option.map_some]
  rfl

end State

/-- Settles O36: by the status, and for a FAULT by whether the write was captured at a window that is still valid. -/
theorem hostAccessCompletes : Obligations.HostAccessCompletes := by
  refine ⟨fun s status free => ?_, fun s t running port owner => ?_⟩
  · simp only [exec, execMemoryCompletion, free]
  · intro free
    have ends (fault : Bool) (data : Option Word) : (free.hostEnds fault data).roomTest = free.hostEnds fault data :=
      State.roomTest_idle rfl
    simp only [exec_memoryCompletion_host running port owner]
    refine ⟨fun data => ?_, fun uncaptured => ?_, fun i o w captured target window sweep => ?_⟩
    · rw [State.completeHostAccess_ok, ends]
    · rw [State.completeHostAccess_fault_uncaptured (s := free) t.kind uncaptured, ends]
    · have law : (free.hostEnds true none).SweepLaw := sweep.congr rfl fun | .a => rfl | .b => rfl
      have lost := State.localStale_lost (c := .memoryFault) (s := free.hostEnds true none) window law (by decide)
      rw [State.completeHostAccess_fault_captured (s := free) t.kind captured target window,
        State.roomTest_idle (by rw [lost.host]; rfl)]
      exact ⟨_, rfl, lost⟩

end Sys2Proof.Machine
end

section
/-! STATEMENTS. The order of the arbiter's choice (R149 to R151). -/

namespace Sys2Proof.Machine

/-! ## The choice between two links (R151) -/

@[simp] theorem otherLink_otherLink (l : LinkId) : otherLink (otherLink l) = l := by cases l <;> rfl

section
variable {pointer l : LinkId} {claims : LinkId → Bool} {Claims : LinkId → Prop} 
  (agrees : ∀ l, claims l = true ↔ Claims l)
include agrees

theorem pick_of_preferred (first : preferred pointer Claims l) : pick pointer claims = some l := by
  obtain ⟨claim, pointed⟩ := first
  by_cases named : pointer = l
  · rw [pick, named, if_pos ((agrees l).2 claim)]
  · have alone : ¬ Claims (otherLink l) := pointed.resolve_left (Ne.symm named)
    rw [pick, eq_otherLink named, if_neg (mt (agrees _).1 alone), otherLink_otherLink, if_pos ((agrees l).2 claim)]

theorem pick_of_unclaimed (unclaimed : ∀ l, ¬ Claims l) : pick pointer claims = none := by
  simp only [pick, agrees, unclaimed, if_false]

/-- A step of the choice ends it where a link claims. -/
theorem pick_or_of_preferred {α : Type} (f : LinkId → α) (later : Option α) (first : preferred pointer Claims l) :
    ((pick pointer claims).map f).or later = some (f l) := by
  rw [pick_of_preferred agrees first, Option.map_some, Option.some_or]

/-- A step of the choice is passed over where no link claims. -/
theorem pick_or_of_unclaimed {α : Type} (f : LinkId → α) (later : Option α) (unclaimed : ∀ l, ¬ Claims l) :
    ((pick pointer claims).map f).or later = later := by
  rw [pick_of_unclaimed agrees unclaimed, Option.map_none, Option.none_or]

end

/-! ## The claims of each step (R149, R150) -/

theorem Link.urgent_iff (k : Link) : k.urgent = true ↔
    (k.config.holdMark ≤ k.apply.queue.length ∨ ∃ e ∈ k.apply.queue, e.drainPoint = true) := by
  simp [Link.urgent, ApplyBlock.hasDrainPoint]

namespace State

variable (s : State)

/-- An apply claim of an urgent link. -/
def urgentApply (l : LinkId) : Bool := (s.link l).applyClaim && (s.link l).urgent

/-- An apply claim whose patience count has reached its share. -/
def patientApply (l : LinkId) : Bool :=
  (s.link l).applyClaim && decide (s.config.applyShare ≤ (s.link l).patience.apply)

/-- A sweep claim whose patience count has reached its share. -/
def patientSweep (l : LinkId) : Bool :=
  s.sweepEligible l && decide (s.config.sweepShare ≤ (s.link l).patience.sweep)

theorem urgentApply_iff (l : LinkId) : s.urgentApply l = true ↔ (s.link l).applyClaim = true ∧
    ((s.link l).config.holdMark ≤ (s.link l).apply.queue.length ∨
      ∃ e ∈ (s.link l).apply.queue, e.drainPoint = true) := by
  rw [urgentApply, Bool.and_eq_true, Link.urgent_iff]

theorem patientApply_iff (l : LinkId) : s.patientApply l = true ↔
    (s.link l).applyClaim = true ∧ s.config.applyShare ≤ (s.link l).patience.apply := by
  rw [patientApply, Bool.and_eq_true, decide_eq_true_iff]

theorem patientSweep_iff (l : LinkId) : s.patientSweep l = true ↔
    s.sweepEligible l = true ∧ s.config.sweepShare ≤ (s.link l).patience.sweep := by
  rw [patientSweep, Bool.and_eq_true, decide_eq_true_iff]

/-- The four steps of R149 as one list of claims, each kind apart. -/
theorem choose_eq : s.choose =
    ((pick s.applyPointer s.urgentApply).map .apply).or
      (((pick s.applyPointer s.patientApply).map .apply).or
        (((pick s.sweepPointer s.patientSweep).map .sweep).or
          (s.hostChoice.or
            (((pick s.applyPointer fun l => (s.link l).applyClaim).map .apply).or
              (((pick s.sweepPointer s.sweepEligible).map .sweep).or none))))) := by
  rw [choose, patientChoice, remainingChoice, Option.or_none, Option.or_assoc, Option.or_assoc, Option.or_assoc]
  rfl

end State

/-- Without a free port or a choice nothing is chosen. -/
theorem exec_arbiterChoice_not {s : State} (idle : s.port.isSome = true ∨ s.choose = none) :
    exec .arbiterChoice s = .next s := by
  refine State.happening_not ?_ _
  rcases idle with busy | nothing
  · rw [← Option.not_isSome, busy]
    rfl
  · rw [nothing, Option.isSome_none, Bool.and_false]

/-- Settles O32: a step that a link or the host claims ends the list of claims, and one that none claims leaves the rest. -/
theorem grantOrder : Obligations.GrantOrder := by
  intro s apply sweep urgent patient patientSweep host
  have applySays (l : LinkId) : (s.link l).applyClaim = true ↔ apply l := Iff.rfl
  have sweepSays (l : LinkId) : s.sweepEligible l = true ↔ sweep l := Iff.rfl
  refine ⟨?_, ?_, exec_arbiterChoice_not⟩ <;> rw [s.choose_eq]
  · exact fun l => pick_or_of_preferred s.urgentApply_iff _ _
  intro noneUrgent
  rw [pick_or_of_unclaimed s.urgentApply_iff _ _ noneUrgent]
  refine ⟨fun l => pick_or_of_preferred s.patientApply_iff _ _, fun nonePatient => ?_⟩
  rw [pick_or_of_unclaimed s.patientApply_iff _ _ nonePatient]
  refine ⟨fun l => pick_or_of_preferred s.patientSweep_iff _ _, fun nonePatientSweep => ?_⟩
  rw [pick_or_of_unclaimed s.patientSweep_iff _ _ nonePatientSweep, State.hostChoice]
  refine ⟨fun claimed => by rw [if_pos claimed, Option.some_or], fun unclaimed => ?_⟩
  rw [if_neg unclaimed, Option.none_or]
  refine ⟨fun l => pick_or_of_preferred applySays _ _, fun noneApply => ?_⟩
  rw [pick_or_of_unclaimed applySays _ _ noneApply]
  exact ⟨fun l => pick_or_of_preferred sweepSays _ _, pick_or_of_unclaimed sweepSays _ _⟩

end Sys2Proof.Machine
end

section
/-! SUPPORT. The commands told apart by who brings them about: the management port's requests, and the happenings. -/

namespace Sys2Proof

/-- Is the command a happening that the model takes through `State.happening`: one of neither the management port nor
hardware reset, and not a memory completion? -/
def Instr.isHappening : Instr → Bool
  | .hostAccessArrival _ | .arbiterChoice | .controlRecordDecision _ | .frameBuild _ | .sweepOpenQueued _
  | .sweepCloseQueued _ | .flushTimerExpiry _ | .transmitChoicePoint _ | .frameEnd _ | .ackTimerExpiry _
  | .peerHoldLimitExpiry _ | .symbolArrival _ _ | .silenceTimerExpiry _ | .trainingTimerExpiry _
  | .captureHoldExpiry => true
  | _ => false

namespace Machine

theorem exec_of_isHappening {c : Instr} (h : c.isHappening = true) (s : State) :
    ∃ can act, exec c s = s.happening can act := by
  cases c with
  | hostAccessArrival | arbiterChoice | controlRecordDecision | frameBuild | sweepOpenQueued | sweepCloseQueued
  | flushTimerExpiry | transmitChoicePoint | frameEnd | ackTimerExpiry | peerHoldLimitExpiry | symbolArrival
  | silenceTimerExpiry | trainingTimerExpiry | captureHoldExpiry => exact ⟨_, _, by rw [exec]; rfl⟩
  | _ => cases h

/-- While hardware reset lasts, no happening does anything. -/
theorem exec_isHappening_inReset {c : Instr} (h : c.isHappening = true) {s : State} (lasting : s.inReset = true) :
    exec c s = .next s := by
  obtain ⟨can, act, occurs⟩ := exec_of_isHappening h s
  rw [occurs, State.happening, lasting]
  rfl

theorem State.take_of_not_canTake {s : State} (h : s.canTake = false) (act : State → State) : s.take act = .next s := by
  simp [State.take, h]

/-- A request that cannot be taken changes nothing (R153). -/
theorem exec_request_ignored {c : Instr} (h : (commandCode c).isSome = true) {s : State} (ignored : s.canTake = false) :
    exec c s = .next s := by
  rw [exec_of_request h, State.take_of_not_canTake ignored]

theorem State.canTake_inReset {s : State} (lasting : s.inReset = true) : s.canTake = false := by
  unfold State.canTake
  split
  · rw [lasting]
    rfl
  · rfl

theorem exec_request_of_taking {c : Instr} (h : (commandCode c).isSome = true) {s : State} {out : Option Response}
    (ht : s.Taking out) : exec c s = .next (s.request c) := by
  rw [exec_of_request h, State.take_of_taking ht]

end Machine
end Sys2Proof
end

section
/-! STATEMENTS. INTN is exact after every step (R161): a happening and a request that touches the events or the mask end by
driving INTN, and every other change leaves what INTN follows as it is. -/

namespace Sys2Proof.Machine

/-- INTN and what it follows: the part configuration with its mask, the event queue and the overflow flag (R161). -/
def State.alarm (s : State) : Bool × PartConfig × List Event × Bool := (s.intn, s.config, s.events, s.overflow)

@[simp] theorem State.modLink_alarm (s : State) (l : LinkId) (f : Link → Link) : (s.modLink l f).alarm = s.alarm := by
  cases l <;> rfl

@[simp] theorem State.markTaken_alarm (s : State) : s.markTaken.alarm = s.alarm := by rw [State.markTaken_eq]; rfl

@[simp] theorem State.respond_alarm (s : State) (code : Byte) (st : Status) (d : List Byte) :
    (s.respond code st d).alarm = s.alarm := by rw [State.respond_eq]; rfl

theorem State.driveIntn_intnExact (s : State) : s.driveIntn.IntnExact := rfl

theorem State.finish_intnExact (s : State) : s.finish.IntnExact := State.finish_intn s

namespace State.IntnExact

variable {s t : State} (hs : s.IntnExact)
include hs

/-- The law speaks of INTN and of what it follows alone. -/
theorem congr (same : t.alarm = s.alarm) : t.IntnExact := by
  simp only [alarm, Prod.mk.injEq] at same
  obtain ⟨intn, config, events, overflow⟩ := same
  unfold IntnExact intnAsserted at *
  rw [intn, config, events, overflow, hs]

/-! ## Requests -/

theorem respond (code : Byte) (st : Status) (d : List Byte) : (s.respond code st d).IntnExact :=
  hs.congr (State.respond_alarm _ _ _ _)

theorem respondOk (code : Byte) : (s.respondOk code).IntnExact := hs.respond _ _ _

theorem refuse (code : Byte) (r : Reason) : (s.refuse code r).IntnExact := hs.respond _ _ _

theorem modLink (l : LinkId) (f : Link → Link) : (s.modLink l f).IntnExact := hs.congr (State.modLink_alarm _ _ _)

theorem setWindow (i : Index) (e : Option Window) : (s.setWindow i e).IntnExact := hs.congr rfl

theorem partConfigSet (f : PartConfigFields) : (s.partConfigSet f).IntnExact := by
  unfold State.partConfigSet
  split
  · exact hs.refuse _ _
  · split
    · exact hs.refuse _ _
    · exact State.driveIntn_intnExact _

theorem windowSet (index : Byte) (f : WindowFields) : (s.windowSet index f).IntnExact := by
  rcases s.windowSet_cases index f with ⟨r, h⟩ | ⟨i, w, -, -, -, h⟩ <;> rw [h]
  · exact hs.refuse _ _
  · exact (hs.setWindow i (some w)).respondOk _

theorem windowClear (index : Byte) : (s.windowClear index).IntnExact := by
  unfold State.windowClear
  split
  · exact hs.refuse _ _
  · split
    · exact hs.respondOk _
    · exact State.finish_intnExact _

theorem windowGet (index : Byte) : (s.windowGet index).IntnExact := by
  unfold State.windowGet
  split
  · exact hs.refuse _ _
  · exact hs.respond _ _ _

theorem linkSet (link : Byte) (f : LinkFields) : (s.linkSet link f).IntnExact := by
  unfold State.linkSet
  split
  · exact hs.refuse _ _
  · split
    · exact hs.refuse _ _
    · split
      · exact hs.refuse _ _
      · exact (hs.modLink _ _).respondOk _

theorem linkEnable (link : Byte) : (s.linkEnable link).IntnExact := by
  unfold State.linkEnable
  split
  · exact hs.refuse _ _
  · split
    · exact hs.refuse _ _
    · split
      · exact hs.refuse _ _
      · exact State.finish_intnExact _

theorem linkDisable (link force : Byte) : (s.linkDisable link force).IntnExact := by
  unfold State.linkDisable
  split
  · exact hs.refuse _ _
  · exact State.finish_intnExact _

theorem linkGet (link : Byte) : (s.linkGet link).IntnExact := by
  unfold State.linkGet
  split
  · exact hs.refuse _ _
  · exact hs.respond _ _ _

theorem flush (link : Byte) : (s.flush link).IntnExact := by
  unfold State.flush
  split
  · exact hs.refuse _ _
  · split
    · exact (hs.modLink _ _).respondOk _
    · exact hs.refuse _ _

theorem sweepStart (index : Byte) : (s.sweepStart index).IntnExact := by
  unfold State.sweepStart
  split
  · exact hs.refuse _ _
  · split
    · exact hs.refuse _ _
    · split_ifs
      iterate 4 exact hs.refuse _ _
      exact State.finish_intnExact _

theorem sweepAbort (index : Byte) : (s.sweepAbort index).IntnExact := by
  unfold State.sweepAbort
  split
  · exact hs.refuse _ _
  · split
    · exact hs.refuse _ _
    · split
      · exact State.finish_intnExact _
      · exact hs.refuse _ _

theorem eventPop : s.eventPop.IntnExact := by
  unfold State.eventPop
  split
  · exact hs.respond _ _ _
  · exact State.driveIntn_intnExact _

theorem badCommand (code : Byte) : (s.badCommand code).IntnExact := by
  unfold State.badCommand
  split
  · exact hs.refuse _ _
  · exact hs

theorem request (c : Instr) : (s.request c).IntnExact := by
  cases c with
  | nop => exact hs.congr (State.markTaken_alarm s)
  | partInfo | partConfigGet => exact hs.respond _ _ _
  | partConfigSet f => exact hs.partConfigSet _
  | windowSet index f => exact hs.windowSet _ _
  | windowClear index => exact hs.windowClear _
  | windowGet index => exact hs.windowGet _
  | linkSet link f => exact hs.linkSet _ _
  | linkEnable link => exact hs.linkEnable _
  | linkDisable link force => exact hs.linkDisable _ _
  | linkGet link => exact hs.linkGet _
  | flush link => exact hs.flush _
  | sweepStart index => exact hs.sweepStart _
  | sweepAbort index => exact hs.sweepAbort _
  | eventPop => exact hs.eventPop
  | eventClear | softReset => exact State.driveIntn_intnExact _
  | badCommand code => exact hs.badCommand _
  | _ => exact hs

theorem endUntaken (clocked : List Byte) : (s.endUntaken clocked).IntnExact := by
  unfold State.endUntaken
  split
  · exact hs
  · split
    · split
      · exact hs.request _
      · exact hs
    · exact hs.congr rfl

/-! ## Commands and steps -/

theorem take {act : State → State} (ha : (act s).IntnExact) (h : s.take act = .next t) : t.IntnExact := by
  cases h
  split
  · exact ha
  · exact hs

/-- Whatever a happening does, it ends by driving INTN. -/
theorem happening {c : Instr} (h : exec c s = .next t) (happens : c.isHappening = true) : t.IntnExact := by
  obtain ⟨can, act, occurs⟩ := exec_of_isHappening happens s
  cases occurs.symm.trans h
  split
  · exact State.finish_intnExact _
  · exact hs

theorem tick : s.tick.IntnExact := by
  unfold State.tick
  split
  · exact hs
  · exact hs.congr rfl

theorem exec (c : Instr) (h : exec c s = .next t) : t.IntnExact := by
  cases c with
  | transactionBegin =>
    cases h
    split
    · exact hs.congr rfl
    · exact hs
    · exact hs
  | transactionEnd clocked =>
    cases h
    split
    · exact (hs.endUntaken clocked).congr rfl
    all_goals exact hs.congr rfl
  | hardwareReset =>
    cases h
    rfl
  | resetEnd =>
    cases h
    exact hs.congr rfl
  | memoryCompletion status =>
    simp only [Machine.exec, execMemoryCompletion] at h
    split at h
    · cases h
      exact hs
    · cases h
      split
      · exact hs.congr rfl
      · exact State.finish_intnExact _
  | hostAccessArrival | arbiterChoice | controlRecordDecision | frameBuild | sweepOpenQueued | sweepCloseQueued
  | flushTimerExpiry | transmitChoicePoint | frameEnd | ackTimerExpiry | peerHoldLimitExpiry | symbolArrival
  | silenceTimerExpiry | trainingTimerExpiry | captureHoldExpiry =>
    exact hs.happening h rfl
  | nop | partInfo | partConfigSet | partConfigGet | windowSet | windowClear | windowGet | linkSet | linkEnable
  | linkDisable | linkGet | flush | sweepStart | sweepAbort | eventPop | eventClear | softReset | badCommand =>
    rw [exec_of_request rfl] at h
    exact hs.take (hs.request _) h

end State.IntnExact

/-- Settles O52: a step is a command on the state with the queue's rest, or a tick, which raises no event. -/
theorem stepKeepsIntnExact : Obligations.StepKeepsIntnExact := by
  intro s t hs h
  unfold step at h
  split at h
  next c rest _ =>
    have queued : ({ s with pending := rest } : State).IntnExact := hs.congr rfl
    exact queued.exec c h
  next =>
    cases h
    exact hs.tick

end Sys2Proof.Machine
end

section
/-! STATEMENTS. The bytes of requests (R153, R166, Table 12-4): written and read back, and short of the last byte no
request. -/

namespace Sys2Proof

/-! ## Fields of more than one byte -/

theorem bytes32_join (v : BitVec 32) :
    v.extractLsb' 24 8 ++ v.extractLsb' 16 8 ++ v.extractLsb' 8 8 ++ v.extractLsb' 0 8 = v := by
  have top : v.extractLsb' 24 8 ++ v.extractLsb' 16 8 = v.extractLsb' 16 16 :=
    BitVec.extractLsb'_append_extractLsb'_eq_extractLsb' rfl
  have high : v.extractLsb' 16 16 ++ v.extractLsb' 8 8 = v.extractLsb' 8 24 :=
    BitVec.extractLsb'_append_extractLsb'_eq_extractLsb' rfl
  rw [top, high]
  exact BitVec.extractLsb'_append_extractLsb'

/-! ## Codes and lengths -/

theorem requestLength_eq_none {code : Byte} (h : 0x11 ≤ code.toNat) : requestLength code = none := by
  unfold requestLength
  split
  case h_18 => rfl
  all_goals omega

theorem requestOf_unnamed {code : Byte} (h : 0x11 ≤ code.toNat) (fields : List Byte) :
    requestOf code fields = some (.badCommand code) := by
  unfold requestOf
  split
  case h_18 => rw [if_pos h]
  all_goals omega

/-- Bytes that spell a request are at least as many as the code needs (R153). -/
theorem requestLength_le {code : Byte} {fields : List Byte} {c : Instr} {n : Nat} (spells : requestOf code fields = some c)
    (length : requestLength code = some n) : n ≤ fields.length + 1 := by
  unfold requestOf at spells
  split at spells
  case h_18 =>
    split at spells
    next named =>
      rw [requestLength_eq_none named] at length
      cases length
    next => cases spells
  all_goals
    simp only [requestLength, *, Option.some.injEq] at length
    simp only [← length, List.length_cons]
    omega

/-- Fewer bytes than the request of the code needs spell none (R153). -/
theorem requestOf_short {code : Byte} {fields : List Byte} {n : Nat} (length : requestLength code = some n)
    (short : fields.length + 1 < n) : requestOf code fields = none := by
  cases spells : requestOf code fields with
  | none => rfl
  | some c => exact absurd (requestLength_le spells length) (Nat.not_le.2 short)

/-! ## Requests written and read back -/

/-- The bytes of a request, and any that follow, spell it (Table 12-4). -/
theorem requestOf_requestFields {c : Instr} {code : Byte} (wellFormed : c.wellFormed = true)
    (hc : commandCode c = some code) (extra : List Byte) : requestOf code (requestFields c ++ extra) = some c := by
  cases c with
  | windowSet i f =>
    cases hc
    change some (Instr.windowSet i { f with base := _ }) = _
    rw [bytes32_join]
  | linkSet l f =>
    cases hc
    change some (Instr.linkSet l { f with flushTime := _, ackTimeout := _ }) = _
    rw [BitVec.extractLsb'_append_extractLsb', BitVec.extractLsb'_append_extractLsb']
  | badCommand b =>
    cases hc
    exact requestOf_unnamed (of_decide_eq_true wellFormed) _
  | _ => cases hc <;> rfl

/-- A request has the length of Table 12-4, unless its code names no command and it has no fields. -/
theorem requestLength_of_commandCode {c : Instr} {code : Byte} (hc : commandCode c = some code) :
    requestLength code = some ((requestFields c).length + 1) ∨ c = .badCommand code := by
  cases c with
  | badCommand b =>
    cases hc
    exact .inr rfl
  | _ => cases hc <;> exact .inl rfl

/-- Settles O23: the fields of the request are read back one by one, and fewer bytes than its length spell none. -/
theorem requestBytesRoundTrip : Obligations.RequestBytesRoundTrip := by
  intro c bytes wellFormed spelled
  obtain ⟨code, hc, rfl⟩ := Option.map_eq_some_iff.1 spelled
  refine ⟨requestOf_requestFields wellFormed hc, fun n short => ?_, fun code' rest same named => ?_⟩
  · cases n with
    | zero => rfl
    | succ n =>
      have fewer : n < (requestFields c).length := Nat.lt_of_succ_lt_succ short
      rcases requestLength_of_commandCode hc with length | rfl
      · refine requestOf_short length ?_
        rw [List.length_take]
        omega
      · cases fewer
  · cases same
    rcases requestLength_of_commandCode hc with length | rfl
    · exact length
    · exact absurd (of_decide_eq_true wellFormed) (Nat.not_le.2 named)

end Sys2Proof
end

section
/-! STATEMENTS. The part configuration and identity, and requests that have no effect (R153 to R157). -/

namespace Sys2Proof

/-- A PART_CONFIG_SET request whose every field is in its range (R156, check 1). -/
def PartConfigFields.Legal (f : PartConfigFields) : Prop :=
  f.nodeId.toNat ≤ 254 ∧ 1 ≤ f.holdLimit.toNat ∧ (1 ≤ f.applyShare.toNat ∧ f.applyShare.toNat ≤ 16) ∧
    (1 ≤ f.sweepShare.toNat ∧ f.sweepShare.toNat ≤ 64) ∧ f.mask.getLsbD 7 = false

/-- The part configuration that an accepted request gives. -/
def PartConfigFields.config (f : PartConfigFields) : Machine.PartConfig :=
  { nodeId := f.nodeId, holdLimit := f.holdLimit.toNat, applyShare := f.applyShare.toNat,
    sweepShare := f.sweepShare.toNat, mask := f.mask }

namespace Machine

theorem partConfigOf_eq_some {f : PartConfigFields} {c : PartConfig} :
    partConfigOf f = some c ↔ f.Legal ∧ f.config = c := by
  have node : f.nodeId = 255 ↔ ¬ f.nodeId.toNat ≤ 254 := by
    rw [BitVec.toNat_eq]
    change f.nodeId.toNat = 255 ↔ _
    have := f.nodeId.isLt
    omega
  have hold := f.holdLimit.isLt
  unfold partConfigOf
  split
  next bad =>
    refine iff_of_false nofun fun ⟨⟨id, _, _, _, mask⟩, _⟩ => ?_
    rcases bad with bad | bad
    · exact node.1 bad id
    · rw [mask] at bad
      cases bad
  next good =>
    rw [not_or, node, not_not, Bool.not_eq_true] at good
    simp only [Option.bind_eq_bind, Option.bind_eq_some_iff, numberIn_eq_some, Option.some.injEq]
    constructor
    · rintro ⟨_, ⟨hold, rfl⟩, _, ⟨apply, rfl⟩, _, ⟨sweep, rfl⟩, rfl⟩
      exact ⟨⟨good.1, hold.1, apply, sweep, good.2⟩, rfl⟩
    · rintro ⟨⟨_, hold, apply, sweep, _⟩, rfl⟩
      exact ⟨_, ⟨⟨hold, by omega⟩, rfl⟩, _, ⟨apply, rfl⟩, _, ⟨sweep, rfl⟩, rfl⟩

theorem partConfigOf_eq_none {f : PartConfigFields} (illegal : ¬ f.Legal) : partConfigOf f = none :=
  Option.eq_none_iff_forall_ne_some.2 fun _ given => illegal (partConfigOf_eq_some.1 given).1

/-- Settles O6: legal fields are those that give a configuration, and INTN is driven from the new mask. -/
theorem partConfigSetChecks : Obligations.PartConfigSetChecks := by
  intro s out f ht legal frozen
  have taken : exec (.partConfigSet f) s = .next (s.partConfigSet f) := exec_request_of_taking rfl ht
  simp only [taken, ← State.refuse_of_taking ht, State.partConfigSet]
  refine ⟨fun h => ?_, fun h fixed => ?_, fun h free => ?_⟩
  · rw [partConfigOf_eq_none h]
  all_goals rw [partConfigOf_eq_some.2 ⟨h, rfl⟩]
  · exact congrArg _ (if_pos fixed)
  · refine congrArg _ ((if_neg free).trans ?_)
    rw [State.respondOk, State.respond_of_active (s := { s with config := f.config }) ht.selected]
    rfl

/-- Settles O5: the effect of each request is its response. -/
theorem identityAndConfigRead : Obligations.IdentityAndConfigRead := by
  intro s out ht
  rw [exec_request_of_taking rfl ht, exec_request_of_taking rfl ht]
  exact ⟨congrArg _ (State.respond_of_taking ht _ _ _), congrArg _ (State.respond_of_taking ht _ _ _)⟩

theorem State.badCommand_unnamed {s : State} {code : Byte} (unnamed : 0x11 ≤ code.toNat) :
    s.badCommand code = s.refuse code .badCommand := by
  rw [State.badCommand, requestLength_eq_none unnamed]
  rfl

/-- Settles O4: what cannot be taken is ignored, and of what is taken NOP has no response. -/
theorem requestTakenOnce : Obligations.RequestTakenOnce := by
  refine ⟨fun c s request ignored => exec_request_ignored request ignored, fun s out ht => ?_,
    fun s out code ht unnamed => ?_⟩
  · have taken : s.markTaken = { s with spi := .active out true } := by simp only [State.markTaken, ht.selected]
    rw [exec_request_of_taking rfl ht, ← taken]
    rfl
  · rw [exec_request_of_taking rfl ht, ← State.refuse_of_taking ht, ← State.badCommand_unnamed unnamed]
    rfl

end Machine
end Sys2Proof
end

section
/-! STATEMENTS. The event queue: what is offered to it, and how it is read and emptied (R158 to R161). -/

namespace Sys2Proof.Machine

/-! ## Events offered -/

/-- Two events merge where both are RECORD_DISCARDED with one link, tag and cause, whatever their counts (R159). -/
theorem Event.mergesInto_iff {new last : Event} : new.mergesInto last = true ↔
    ∃ l t c m n, new = .recordDiscarded l t c m ∧ last = .recordDiscarded l t c n := by
  unfold Event.mergesInto
  split
  next l t c m l' t' c' n =>
    simp only [Bool.and_eq_true, decide_eq_true_eq]
    constructor
    · rintro ⟨⟨rfl, rfl⟩, rfl⟩
      exact ⟨_, _, _, _, _, rfl, rfl⟩
    · rintro ⟨_, _, _, _, _, ⟨⟩, ⟨⟩⟩
      exact ⟨⟨rfl, rfl⟩, rfl⟩
  next other =>
    refine iff_of_false nofun ?_
    rintro ⟨_, _, _, _, _, rfl, rfl⟩
    exact other _ _ _ _ _ _ _ _ rfl rfl

/-- Settles O21: what decides is the newest entry of the queue, and then the room in it. -/
theorem eventOfferedToQueue : Obligations.EventOfferedToQueue := by
  constructor
  · intro s q l t c n m queue
    have merges : Event.mergesInto (.recordDiscarded l t c m) (.recordDiscarded l t c n) = true :=
      Event.mergesInto_iff.2 ⟨_, _, _, _, _, rfl, rfl⟩
    simp only [State.raise, queue, List.getLast?_concat, Option.any_some, merges, if_true, List.dropLast_concat]
    rfl
  · intro s e apart
    have enters : s.events.getLast?.any e.mergesInto = false := by
      rw [Bool.eq_false_iff, ne_eq, Option.any_eq_true]
      rintro ⟨last, newest, merges⟩
      obtain ⟨q, queue⟩ := List.getLast?_eq_some_iff.1 newest
      obtain ⟨l, t, c, m, n, rfl, rfl⟩ := Event.mergesInto_iff.1 merges
      exact apart q l t c n m rfl queue
    rw [State.raise, if_neg (Bool.eq_false_iff.1 enters)]
    exact ⟨fun room => if_pos room, fun full => if_neg (Nat.not_lt.2 full)⟩

/-! ## EVENT_POP and EVENT_CLEAR -/

theorem exec_eventPop_empty {s : State} {out : Option Response} (ht : s.Taking out) (empty : s.events = []) :
    exec .eventPop s = .next (s.answered out 0x0E .ok ([0, flagByte s.overflow] ++ emptyEventBytes)) := by
  have popped : s.eventPop = s.respond 0x0E .ok ([0, flagByte s.overflow] ++ emptyEventBytes) := by
    simp only [State.eventPop, empty]
  rw [← State.respond_of_taking ht, ← popped]
  exact exec_request_of_taking rfl ht

theorem exec_eventPop_cons {s : State} {out : Option Response} {e : Event} {rest : List Event} (ht : s.Taking out)
    (queue : s.events = e :: rest) : exec .eventPop s =
      .next { s.answered out 0x0E .ok ([byteOf rest.length, flagByte s.overflow] ++ e.bytes) with
        events := rest
        intn := rest.any (fun e => s.config.mask.getLsbD (e.kindCode - 1)) || s.overflow } := by
  have popped : s.eventPop = (({ s with events := rest } : State).respond 0x0E .ok
      ([byteOf rest.length, flagByte s.overflow] ++ e.bytes)).driveIntn := by simp only [State.eventPop, queue]
  rw [State.respond_of_active (s := { s with events := rest }) ht.selected] at popped
  exact (exec_request_of_taking rfl ht).trans (congrArg _ popped)

/-- Settles O20: by the oldest entry, and each with INTN driven from what is left. -/
theorem eventPopAndClear : Obligations.EventPopAndClear := by
  intro s out ht
  refine ⟨exec_eventPop_empty ht, fun e rest => exec_eventPop_cons ht, ?_⟩
  have cleared : s.eventClear = (({ s with events := [], overflow := false } : State).answered out 0x0F .ok []).driveIntn :=
    congrArg State.driveIntn (State.respond_of_active (s := { s with events := [], overflow := false }) ht.selected _ _ _)
  exact (exec_request_of_taking rfl ht).trans (congrArg _ cleared)

/-- Settles O59: kind by kind, each coded field by its values. -/
theorem eventEntryBytes : Obligations.EventEntryBytes := by
  intro s out e rest ht queue reports link side reason cause rank
  have reported : reports e.bytes := ⟨_, exec_eventPop_cons ht queue, rfl⟩
  have links (l : LinkId) : linkByte l = link l := by cases l <;> rfl
  have sides (d : Side) : d.toByte = side d := by cases d <;> rfl
  have reasons (r : FaultReason) : r.toByte = reason r := by cases r <;> rfl
  have causes (c : Cause) : c.toByte = cause c := by cases c <;> rfl
  have ranks (r : Rank) : r.toByte = rank r := by cases r <;> rfl
  simp only [← links, ← sides, ← reasons, ← causes, ← ranks]
  refine ⟨?_, ?_, ?_, ?_, ?_, ?_, ?_⟩
  all_goals
    intros
    subst e
    exact reported

end Sys2Proof.Machine
end

section
/-! STATEMENTS. Transactions on the management port: their begin and their end (R153, R154). -/

namespace Sys2Proof.Machine

/-- What the end of an untaken transaction leaves of its bytes, and the transaction deselected (R154). -/
theorem exec_transactionEnd_active {s : State} {out : Option Response} (active : s.spi = .active out false)
    (bytes : List Byte) : exec (.transactionEnd bytes) s = .next { s.endUntaken bytes with spi := .idle } := by
  simp only [exec, execTransactionEnd, active]

theorem exec_transactionEnd_ended {s : State} {out : Option Response} (ended : s.spi = .active out true ∨ s.spi = .ignored)
    (bytes : List Byte) : exec (.transactionEnd bytes) s = .next { s with spi := .idle } := by
  rcases ended with spi | spi <;> simp only [exec, execTransactionEnd, spi]

theorem State.Taking.canTake {s : State} {out : Option Response} (ht : s.Taking out) : s.canTake = true := by
  simp only [State.canTake, ht.selected, ht.running, Bool.not_false]

/-- The bytes of a whole request have, at the end of their transaction, the effect of that request (R153, log entry 25). -/
theorem State.endUntaken_of_taking {s : State} {out : Option Response} {bytes : List Byte} {c : Instr} (ht : s.Taking out)
    (whole : takeRequest bytes = some c) : s.endUntaken bytes = s.request c := by
  cases bytes with
  | nil => cases whole
  | cons code fields => simp only [State.endUntaken, whole, ht.canTake, if_true]

/-- Fewer bytes than the request of the code needs are answered with REFUSED (SHORT) (R154). -/
theorem State.endUntaken_short (s : State) {code : Byte} {fields : List Byte} {n : Nat}
    (length : requestLength code = some n) (short : fields.length + 1 < n) :
    s.endUntaken (code :: fields) = { s with response := some { code, status := .refused .short, data := [] } } := by
  have none : takeRequest (code :: fields) = none := requestOf_short length short
  simp only [State.endUntaken, none]

/-- Settles O22: a transaction that can still be taken ends as its bytes say, and every other only ends. -/
theorem transactionBeginsAndEnds : Obligations.TransactionBeginsAndEnds := by
  refine ⟨fun s idle => ?_, fun s out code rest n active length short => ?_, fun s out active => ?_,
    fun s out bytes ended => exec_transactionEnd_ended ended bytes, fun s out bytes c ht whole => ?_⟩
  · simp only [exec, execTransactionBegin, idle]
    constructor <;> intro reset <;> rw [reset] <;> rfl
  · rw [exec_transactionEnd_active active, State.endUntaken_short s length short]
  · exact exec_transactionEnd_active active []
  · rw [exec_transactionEnd_active ht.selected, State.endUntaken_of_taking ht whole]
    exact ⟨_, (exec_takeRequest whole s).trans (State.take_of_taking ht _), rfl⟩

end Sys2Proof.Machine
end

section
/-! STATEMENTS. Soft reset and hardware reset (R162, R163). -/

namespace Sys2Proof.Machine

/-! ## Soft reset -/

theorem State.tablesReset_a (s : State) : s.tablesReset.a = .reset s.a.config := by
  rw [State.tablesReset, State.modWindows_eq]
  rfl

theorem State.tablesReset_b (s : State) : s.tablesReset.b = .reset s.b.config := by
  rw [State.tablesReset, State.modWindows_eq]
  rfl

/-- Soft reset of the blocks in one update: the reset tables, and the host port its own reset leaves (R162). -/
theorem State.resetBlocks_eq (s : State) : s.resetBlocks = { s with
    windows := s.tablesReset.windows, a := .reset s.a.config, b := .reset s.b.config
    host := s.tablesReset.softResetHost.host, applyPointer := .a, sweepPointer := .a, events := []
    overflow := false } := by
  have blocks : s.resetBlocks = { s.tablesReset.softResetHost with
    applyPointer := .a, sweepPointer := .a, events := [], overflow := false } := rfl
  have tables := s.tablesReset_eq
  rw [State.tablesReset_a, State.tablesReset_b] at tables
  rw [blocks, State.softResetHost_eq]
  generalize s.tablesReset = t at tables ⊢
  generalize t.softResetHost.host = h
  rw [tables]

/-- SOFT_RESET in one update: the blocks reset, the answer, and INTN released with the events (R162). -/
theorem State.softReset_eq {s : State} {out : Option Response} (ht : s.Taking out) :
    s.softReset = { s.resetBlocks.answered out 0x10 .ok [] with intn := false } := by
  have spi : s.resetBlocks.spi = .active out false := by
    rw [State.resetBlocks_eq]
    exact ht.selected
  have quiet : (s.resetBlocks.answered out 0x10 .ok []).intnAsserted = false := by
    rw [State.resetBlocks_eq]
    rfl
  rw [State.softReset, State.respondOk, State.respond_of_active spi, State.driveIntn, quiet]

theorem State.tablesReset_softResetHost_idle {s : State} (idle : s.host.phase = .idle) :
    s.tablesReset.softResetHost.host = s.host := by
  simp only [State.softResetHost, State.tablesReset_host, idle]

theorem State.tablesReset_softResetHost_inMemory {s : State} (inMemory : s.host.phase = .inMemory) :
    s.tablesReset.softResetHost.host = { s.host with captured := false } := by
  simp only [State.softResetHost, State.tablesReset_host, inMemory]

/-- Settles O24: block by block, the links at their reset values and the table with each side stale. -/
theorem softResetBlocks : Obligations.SoftResetBlocks := by
  intro s out ht
  have windows : s.softReset.windows = s.tablesReset.windows := by rw [State.softReset_eq ht, State.resetBlocks_eq]; rfl
  refine ⟨s.softReset, exec_request_of_taking rfl ht, fun i => ?_, fun l => ?_, ?_⟩
  · exact (congrArg (·[i]) windows).trans (s.tablesReset_window i)
  · rw [State.softReset_eq ht, State.resetBlocks_eq]
    cases l <;> rfl
  · rw [State.softReset_eq ht, State.resetBlocks_eq, State.answered]
    exact ⟨rfl, rfl, rfl, rfl, rfl, rfl, rfl, rfl, ht.running, rfl, rfl, State.tablesReset_softResetHost_idle,
      State.tablesReset_softResetHost_inMemory⟩

/-! ## Hardware reset -/

/-- Hardware reset lasting, only the ends of transactions and of the reset itself change anything (R163). -/
theorem exec_inReset {s : State} {c : Instr} (lasting : s.inReset = true) (memory : ∀ status, c ≠ .memoryCompletion status)
    (ends : ∀ bytes, c ≠ .transactionEnd bytes) (begins : c ≠ .transactionBegin) (resets : c ≠ .hardwareReset)
    (resetEnds : c ≠ .resetEnd) : exec c s = .next s := by
  cases c with
  | transactionBegin => exact absurd rfl begins
  | transactionEnd bytes => exact absurd rfl (ends bytes)
  | hardwareReset => exact absurd rfl resets
  | resetEnd => exact absurd rfl resetEnds
  | memoryCompletion status => exact absurd rfl (memory status)
  | hostAccessArrival | arbiterChoice | controlRecordDecision | frameBuild | sweepOpenQueued | sweepCloseQueued
  | flushTimerExpiry | transmitChoicePoint | frameEnd | ackTimerExpiry | peerHoldLimitExpiry | symbolArrival
  | silenceTimerExpiry | trainingTimerExpiry | captureHoldExpiry => exact exec_isHappening_inReset (by rfl) lasting
  | _ => exact exec_request_ignored (by rfl) (State.canTake_inReset lasting)

/-- Settles O26: while it lasts a request cannot be taken and no happening occurs; what nobody owns ends for nobody. -/
theorem hardwareResetBlocks : Obligations.HardwareResetBlocks := by
  refine ⟨fun s => ?_, fun s => rfl, fun s c lasting => exec_inReset lasting, fun s status lasting => ?_,
    fun s status t running port nobody => ?_⟩
  · simp only [exec, execHardwareReset]
    cases s.spi <;> rfl
  · cases port : s.port with
    | none =>
      simp only [exec, execMemoryCompletion, port]
      rw [← port]
    | some t => simp only [exec, execMemoryCompletion, port, lasting, if_true]
  · simp only [exec, execMemoryCompletion, port, running, State.complete, State.completeOwner, nobody]
    rfl

end Sys2Proof.Machine
end

section
/-! STATEMENTS. What a symbol says (R164). -/

namespace Sys2Proof.Machine

/-! ## Malformed symbols -/

theorem twoBits_cases (v : BitVec 2) : v = 0b00#2 ∨ v = 0b01#2 ∨ v = 0b10#2 ∨ v = 0b11#2 := by
  revert v
  decide

/-- A CONTROL code is the upper bits of the payload (Table 12-2). -/
theorem payload_code (sym : Symbol) : (sym.extractLsb' 0 16).extractLsb' 14 2 = sym.extractLsb' 14 2 := by
  rw [BitVec.extractLsb'_extractLsb'_of_le (by decide)]

/-- IDLE, FRAME_START and DATA are never malformed (R164). -/
theorem decodeSymbol_ne_malformed_of_type {sym : Symbol} (aligned : sym.extractLsb' 18 2 = 0b10#2)
    (type : sym.extractLsb' 16 2 ≠ 0b11#2) : decodeSymbol sym ≠ .malformed := by
  rw [decodeSymbol, if_neg (not_not_intro aligned)]
  rcases twoBits_cases (sym.extractLsb' 16 2) with idle | frameStart | data | control
  · rw [idle]
    nofun
  · rw [frameStart]
    nofun
  · rw [data]
    nofun
  · exact absurd control type

/-- A CONTROL symbol is malformed unless it is a NAK or a HELLO (Table 12-2, R164). -/
theorem decodeSymbol_control_malformed_iff {sym : Symbol} (aligned : sym.extractLsb' 18 2 = 0b10#2)
    (control : sym.extractLsb' 16 2 = 0b11#2) :
    decodeSymbol sym = .malformed ↔ sym.extractLsb' 14 2 = 0b00#2 ∨ sym.extractLsb' 14 2 = 0b11#2 := by
  rw [decodeSymbol, if_neg (not_not_intro aligned), control, payload_code]
  rcases twoBits_cases (sym.extractLsb' 14 2) with code | nak | hello | code
  · rw [code]
    exact iff_of_true rfl (.inl rfl)
  · rw [nak]
    exact iff_of_false nofun (by decide)
  · rw [hello]
    exact iff_of_false nofun (by decide)
  · rw [code]
    exact iff_of_true rfl (.inr rfl)

theorem decodeSymbol_malformed_iff (sym : Symbol) : decodeSymbol sym = .malformed ↔
    sym.extractLsb' 18 2 ≠ 0b10#2 ∨ (sym.extractLsb' 16 2 = 0b11#2 ∧
      (sym.extractLsb' 14 2 = 0b00#2 ∨ sym.extractLsb' 14 2 = 0b11#2)) := by
  by_cases aligned : sym.extractLsb' 18 2 = 0b10#2
  · by_cases control : sym.extractLsb' 16 2 = 0b11#2
    · rw [decodeSymbol_control_malformed_iff aligned control]
      simp only [ne_eq, aligned, control, not_true_eq_false, false_or, true_and]
    · refine iff_of_false (decodeSymbol_ne_malformed_of_type aligned control) ?_
      rintro (misaligned | ⟨isControl, -⟩)
      · exact misaligned aligned
      · exact control isControl
  · exact iff_of_true (by rw [decodeSymbol, if_pos aligned]) (.inl aligned)

/-- Settles O45: kind by kind, and a symbol by its alignment bits, its type and its code. -/
theorem symbolsReadBack : Obligations.SymbolsReadBack :=
  ⟨decodeSymbol_idleSymbol, fun seq seen _ one most => decodeSymbol_frameStart seq seen one most, decodeSymbol_data,
    decodeSymbol_nakSymbol, decodeSymbol_helloSymbol, decodeSymbol_malformed_iff⟩

end Sys2Proof.Machine
end

section
/-! STATEMENTS. The step with a command waiting (log entry 1). -/

namespace Sys2Proof.Machine

/-- Settles O1: the step is by the front of the queue. -/
theorem stepRunsFront : Obligations.StepRunsFront := by
  intro c rest s waiting
  rw [step]
  simp only [waiting]

end Sys2Proof.Machine
end
